-- ==== Sys2Proof/Word.lean ====
section
/-! DEFINITION. The two word types of the block (00_scope.md R10: every value is unsigned). -/

namespace Sys2Proof

/-- A byte: one exchange moves one out and one in (R70, R130). -/
abbrev Byte := BitVec 8

/-- A 32-bit unsigned word: `startSector`, `count`, a command argument (R8: SECTOR_W, COUNT_W, ARG_W). -/
abbrev Word32 := BitVec 32

end Sys2Proof
end

