-- ==== Sys2Proof/Config.lean ====
section
/-! DEFINITION. What is fixed for the machine: the constants of table T-PARAM-FIXED (R8), the open parameters of table
T-PARAM-OPEN (R9), and the values nothing fixes, as constants without a body. -/

namespace Sys2Proof.Config

/-! ## Fixed parameters (R8, table T-PARAM-FIXED) -/

/-- FILLER, sent when the block only wants to receive (R100). -/
abbrev filler : Byte := 0xFF
/-- FRAME_LEN, bytes of a command frame. -/
abbrev frameLen : Nat := 6
/-- CMD_PREFIX, OR-ed onto the index to make frame byte 0 (R102). -/
abbrev cmdPrefix : Byte := 0x40
/-- N_CMD_POLL, the most exchanges of one R1 poll (R153). -/
abbrev nCmdPoll : Nat := 500
/-- N_ACMD41, the most iterations of the CMD55 + CMD41 loop (R187). -/
abbrev nAcmd41 : Nat := 65535
/-- N_TOKEN_POLL, the most exchanges of one read token poll (R234). -/
abbrev nTokenPoll : Nat := 65535
/-- BLOCK_LEN, the transfer unit and the SDSC address multiplier. -/
abbrev blockLen : Nat := 512
/-- N_DATA_CRC, CRC bytes after a data block. -/
abbrev nDataCrc : Nat := 2
/-- START_TOKEN, start of data, both directions. -/
abbrev startToken : Byte := 0xFE
/-- DUMMY_CRC, each of the two CRC bytes sent after a written block. -/
abbrev dummyCrc : Byte := 0xFF
/-- RESP_MASK, the low 5 bits of the data-response token. -/
abbrev respMask : Byte := 0x1F
/-- RESP_ACCEPTED, the masked data-response token that means accepted. -/
abbrev respAccepted : Byte := 0x05
/-- BUSY_BYTE, received while the card is busy. -/
abbrev busyByte : Byte := 0x00
/-- R1_IDLE, expected from CMD0 and, for the v2 branch, from CMD8. -/
abbrev r1Idle : Byte := 0x01
/-- R1_READY, ends the ACMD41 loop, validates CMD58, required from CMD17 and CMD24. -/
abbrev r1Ready : Byte := 0x00
/-- ARG_CMD8. -/
abbrev argCmd8 : Word32 := 0x000001AA
/-- ECHO_VOLT, required of TRAIL[2] after CMD8. -/
abbrev echoVolt : Byte := 0x01
/-- ECHO_PATTERN, required of TRAIL[3] after CMD8. -/
abbrev echoPattern : Byte := 0xAA
/-- ARG_ACMD41_V2, the capacity-support bit set. -/
abbrev argAcmd41V2 : Word32 := 0x40000000
/-- ARG_ACMD41_LEGACY. -/
abbrev argAcmd41Legacy : Word32 := 0x00000000
/-- OCR_CCS_MASK, bit 6 of the OCR's first byte. -/
abbrev ocrCcsMask : Byte := 0x40
/-- N_POWERUP, power-up fillers of INIT: the spec's decision D7 (R9, R182). -/
abbrev nPowerup : Nat := 10

/-! ## Open parameters (R9, table T-PARAM-OPEN) -/

/-- The open parameters that some rule reads. A value of this type is an argument of the model, kept in a field of State
that no step changes (R44; assumption 11). -/
structure Params where
  /-- CRC_CMD0, frame byte 5 of CMD0 (R93). -/
  crcCmd0 : Byte
  /-- CRC_CMD8, frame byte 5 of CMD8 (R93). -/
  crcCmd8 : Byte
  /-- CRC_OTHER, frame byte 5 of the other five commands (R93). -/
  crcOther : Byte
  /-- WRITE_BUSY_BOUND: `none` is the reference behaviour, `some B` with B at least 1 the bounded variant (R248). -/
  writeBusyBound : Option Nat
  deriving DecidableEq, Repr

/-- The defaults of T-PARAM-OPEN. 0x95 and 0x87 are from general knowledge, 0xFF is the spec's own choice (assumption 11). -/
def Params.defaults : Params :=
  { crcCmd0 := 0x95, crcCmd8 := 0x87, crcOther := 0xFF, writeBusyBound := none }

/-- R248: a bound is at least 1. -/
def Params.wf (p : Params) : Bool := p.writeBusyBound != some 0

/-! ## Values nothing fixes: no body, so nothing can be proved of them -/

/-- The byte the card answers with on the n-th draw, where the environment's fixed answers have run out (R12, R138;
assumption 1). -/
opaque cardByte : Nat → Byte
/-- SECTOR_COUNT, a constant of the shim (R9, R40; assumption 21). -/
opaque sectorCount : Nat
/-- ERASE_BLOCK_SIZE, a constant of the shim (R9, R40; assumption 21). -/
opaque eraseBlockSize : Nat
/-- DIV_SLOW, the divider of the slow clock (R9, R134; assumption 21). -/
opaque divSlow : Nat
/-- DIV_FAST, the divider of the fast clock (R9, R134; assumption 21). -/
opaque divFast : Nat

end Sys2Proof.Config
end

