-- ==== Sys2Proof/Machine/State.lean ====
section
/-! DEFINITION. The state of the block as plain data (10_state.md), the reasons a step can stop, and the state after reset. -/

namespace Sys2Proof.Machine

/-- The card class of `CardState.capacityClass` (R21). -/
inductive CapacityClass where
  | sdsc
  | sdhc
  deriving DecidableEq, Repr

/-- The two named clock speeds (R24). -/
inductive ClockSpeed where
  | slow
  | fast
  deriving DecidableEq, Repr

/-- The result names of table T-RESULT (R271). Codes 6 and 7 have no name: they are never produced (R110). -/
inductive Result where
  | ok
  | cmd0Failed
  | commandRejected
  | dataTokenTimeout
  | writeResponseRejected
  | writeBusyTimeout
  deriving DecidableEq, Repr

/-- The values of PHASE, table T-PHASE (R33). The index in parentheses of a label is the value of IDX. -/
inductive Phase where
  | idle
  | fSelect
  | fTx
  | fPoll
  | fTrail
  | iEntry
  | iPowerup
  | iCmd0
  | iCmd8
  | iLoop55
  | iLoop41
  | iCmd58
  | iFinDeselect
  | iFinFiller
  | iFinFast
  | rHead
  | rCmd17
  | rToken
  | rData
  | rCrc
  | rEndDeselect
  | rEndFiller
  | rErrDeselect
  | rErrFiller
  | wHead
  | wCmd24
  | wGap
  | wReselect
  | wToken
  | wData
  | wCrc
  | wResp
  | wBusy
  | wEndDeselect
  | wEndFiller
  | wErrDeselect
  | wErrFiller
  deriving DecidableEq, Repr

/-- The values of RET: the program point whose SendCommand is running (R35). -/
inductive RetPoint where
  | iCmd0
  | iCmd8
  | iLoop55
  | iLoop41
  | iCmd58
  | rCmd17
  | wCmd24
  deriving DecidableEq, Repr

/-- FRAME (R26). -/
structure Frame where
  index : BitVec 6
  argument : Word32
  crc : Byte
  deriving DecidableEq, Repr

/-- TRAIL[0..3] (R28). -/
structure Trail where
  b0 : Byte
  b1 : Byte
  b2 : Byte
  b3 : Byte
  deriving DecidableEq, Repr

/-- TXSR, RXSR, BITCNT (R32) and the level of the serial clock pin SCLK (R135, R136). -/
structure Serializer where
  txsr : Byte
  rxsr : Byte
  bitcnt : BitVec 3
  sclk : Bool
  deriving DecidableEq, Repr

/-- One record of the bus trace (R13, R130). -/
structure Xfer where
  tx : Byte
  rx : Byte
  sel : Bool
  clk : ClockSpeed
  deriving DecidableEq, Repr

/-- Bytes by address, in one canonical form: addresses strictly rising, no entry equal to what an unlisted address reads
as (Ops.lean: `Memory.unlisted`, `Memory.WF`). -/
abbrev Memory := List Host.Cell

/-- The environment's answers (R12, R138; assumption 1): the bytes received next, oldest first; then, if given, one byte for
ever; else the free values `Config.cardByte`, read at the count of draws made. Not state of the card: the block never reads
it but to receive. -/
structure CardSource where
  script : List Byte
  forever : Option Byte
  drawn : Nat
  deriving DecidableEq, Repr

/-- The four host registers by number (R37). -/
inductive HostReg where
  | reqOp
  | reqSector
  | reqCount
  | stat
  deriving DecidableEq, Repr

/-- What the host can do to the block (R37, R38, R60). -/
inductive HostAccess where
  /-- Write a register. Register 0 takes the low 2 bits. -/
  | write (reg : HostReg) (value : Word32)
  /-- Bind the buffer of the next operations: all its bytes, offset 0 first (R60). -/
  | bindBuffer (bytes : List Byte)
  /-- Make no access in this step: an entry of `hostQueue` that says when the next one lands (assumption 5). -/
  | pass
  deriving DecidableEq, Repr

/-- The machine's faults. -/
inductive Fault where
  /-- Raised by R_DATA(j) and W_DATA(j) when the offset lies outside the buffer the host bound (U7; assumption 6). No run
  reaches it, since a request checks the size. Safe: the model stops where the source says nothing. -/
  | bufferOutOfRange
  deriving DecidableEq, Repr

/-- The machine's refusals. -/
inductive Refusal where
  /-- Raised by exec for an instruction that has no meaning yet: none. Safe. -/
  | notModelled (mnemonic : String)
  /-- Raised by INIT, READ_BLOCKS and WRITE_BLOCKS when an operation is in progress: the re-entry the source forbids and
  gives no behaviour for (U3, R38, R314; assumption 7). Unsafe if a real host does it. -/
  | requestWhileBusy
  /-- Raised by READ_BLOCKS and WRITE_BLOCKS when the bound buffer has fewer than count x 512 bytes (U7, R60;
  assumption 6). Safe. -/
  | bufferTooShort
  deriving DecidableEq, Repr

/-- All the state of the block, the host's buffer, the model's records and what is due from outside. INVENTORY.md, '## State',
names the rule and the reset value of each field. -/
structure State where
  -- persistent state (R20 to R24)
  capacityClass : CapacityClass
  initialized : Bool
  sel : Bool
  clk : ClockSpeed
  -- the sequencer (R33, R35)
  phase : Phase
  ret : RetPoint
  -- the data path (R26 to R32)
  frame : Frame
  tlen : Fin 5
  r1 : Byte
  trail : Trail
  poll : Nat
  retry : Nat
  v2 : Bool
  idx : Nat
  sector : Word32
  remain : Word32
  offset : Nat
  resp : Byte
  err : Result
  ser : Serializer
  -- host registers (R37 to R39); STAT is computed (Flags.lean)
  reqOp : BitVec 2
  reqSector : Word32
  reqCount : Word32
  result : Result
  -- the host buffer (R60)
  buf : Memory
  bufLen : Nat
  -- the model's records of the observation (R13)
  trace : List Xfer
  results : List Result
  -- from outside: the card, the host, the reset input, the open parameters
  card : CardSource
  hostQueue : List HostAccess
  resetIn : Bool
  par : Config.Params
  deriving DecidableEq, Repr

/-- The machine after reset (R45, R310). The registers R310 leaves unspecified have the values of assumption 9. -/
def State.reset : State :=
  { capacityClass := .sdsc
    initialized := false
    sel := false
    clk := .slow
    phase := .idle
    ret := .iCmd0
    frame := { index := 0, argument := 0, crc := 0 }
    tlen := 0
    r1 := 0
    trail := { b0 := 0, b1 := 0, b2 := 0, b3 := 0 }
    poll := 0
    retry := 0
    v2 := false
    idx := 0
    sector := 0
    remain := 0
    offset := 0
    resp := 0
    err := .ok
    ser := { txsr := 0xFF, rxsr := 0, bitcnt := 0, sclk := false }
    reqOp := 0
    reqSector := 0
    reqCount := 0
    result := .ok
    buf := []
    bufLen := 0
    trace := []
    results := []
    card := { script := [], forever := none, drawn := 0 }
    hostQueue := []
    resetIn := false
    par := Config.Params.defaults }

end Sys2Proof.Machine
end

