-- ==== Sys2Proof/Machine/Ops.lean ====
section
/-! DEFINITION. The named operations over the state: the host buffer, the bus primitives (40_bus_driver.md), the entry of
SendCommand, and how an operation ends (60_exceptions.md). -/

namespace Sys2Proof.Machine

/-! ## Memory: bytes by address, canonical -/

/-- What an unlisted address reads as (assumption 6). -/
def Memory.unlisted : Byte := 0x00

/-- The byte at an address. -/
def Memory.read : Memory → Nat → Byte
  | [], _ => Memory.unlisted
  | (a, v) :: m, x => if a = x then v else Memory.read m x

/-- The memory with one byte stored, in canonical form again. -/
def Memory.write : Memory → Nat → Byte → Memory
  | [], x, v => if v = Memory.unlisted then [] else [(x, v)]
  | (a, u) :: m, x, v =>
    if a < x then (a, u) :: Memory.write m x v
    else if a = x then (if v = Memory.unlisted then m else (x, v) :: m)
    else (if v = Memory.unlisted then (a, u) :: m else (x, v) :: (a, u) :: m)

/-- The memory that holds a list of bytes from an address on and nothing else. -/
def Memory.ofBytes : Nat → List Byte → Memory
  | _, [] => []
  | a, b :: bs => if b = Memory.unlisted then Memory.ofBytes (a + 1) bs else (a, b) :: Memory.ofBytes (a + 1) bs

/-- The canonical form: addresses strictly rising, no entry that reads as an unlisted address does. -/
abbrev Memory.WF (m : Memory) : Prop :=
  m.Pairwise (fun c d => c.1 < d.1) ∧ ∀ c ∈ m, c.2 ≠ Memory.unlisted

/-- `BufRead(off)` (R61): nothing outside the bound buffer (U7; assumption 6). -/
def State.bufRead (s : State) (off : Nat) : Option Byte :=
  if off < s.bufLen then some (s.buf.read off) else none

/-- `BufWrite(off, v)` (R62): nothing outside the bound buffer (U7; assumption 6). -/
def State.bufWrite (s : State) (off : Nat) (v : Byte) : Option State :=
  if off < s.bufLen then some { s with buf := s.buf.write off v } else none

/-- The host binds a buffer: all its bytes, and so its size (R60). -/
def State.bindBuffer (bytes : List Byte) (s : State) : State :=
  { s with buf := Memory.ofBytes 0 bytes, bufLen := bytes.length }

/-! ## The trailing payload file -/

/-- TRAIL[j]. -/
def Trail.get (t : Trail) : Nat → Byte
  | 0 => t.b0
  | 1 => t.b1
  | 2 => t.b2
  | _ => t.b3

/-- TRAIL[j] <- v. There is no TRAIL[4]: a larger j writes nothing (R28). -/
def Trail.set (t : Trail) (j : Nat) (v : Byte) : Trail :=
  match j with
  | 0 => { t with b0 := v }
  | 1 => { t with b1 := v }
  | 2 => { t with b2 := v }
  | 3 => { t with b3 := v }
  | _ => t

/-! ## The serializer (R135) -/

/-- The bits of a byte in clock order: most significant first (R67). -/
def bitsMsbFirst (b : Byte) : List Bool :=
  [b.getLsbD 7, b.getLsbD 6, b.getLsbD 5, b.getLsbD 4, b.getLsbD 3, b.getLsbD 2, b.getLsbD 1, b.getLsbD 0]

/-- `TXSR <- tx ; RXSR <- 0 ; BITCNT <- 0`, SCLK low. -/
def Serializer.load (tx : Byte) : Serializer := { txsr := tx, rxsr := 0, bitcnt := 0, sclk := false }

/-- `SCLK rises ; RXSR <- RXSR[6:0] ‖ MISO`: MISO is sampled on the rising edge. -/
def Serializer.raise (miso : Bool) (r : Serializer) : Serializer :=
  { r with sclk := true, rxsr := r.rxsr.shiftConcat miso }

/-- `SCLK falls`. -/
def Serializer.lower (r : Serializer) : Serializer := { r with sclk := false }

/-- `TXSR <- TXSR[6:0] ‖ 1 ; BITCNT <- BITCNT + 1`. -/
def Serializer.nextBit (r : Serializer) : Serializer :=
  { r with txsr := r.txsr.shiftConcat true, bitcnt := r.bitcnt + 1 }

/-- One serial clock: SCLK rises and MISO is sampled, SCLK falls, the next bit is shifted out. -/
def Serializer.clock (miso : Bool) (r : Serializer) : Serializer := ((r.raise miso).lower).nextBit

/-- The serializer after a sequence of serial clocks. -/
def Serializer.shift : List Bool → Serializer → Serializer
  | [], r => r
  | miso :: rest, r => Serializer.shift rest (r.clock miso)

/-- The levels the serializer drives (R135, R136). -/
structure SerialLevels where
  sclk : Bool
  mosi : Bool
  deriving DecidableEq, Repr

/-- SCLK, and MOSI at TXSR[7]. -/
def Serializer.levels (r : Serializer) : SerialLevels := { sclk := r.sclk, mosi := r.txsr.msb }

/-- The levels driven through a sequence of serial clocks, three a clock: the bit driven, SCLK risen, SCLK fallen; then the
levels it ends at. -/
def Serializer.wave : List Bool → Serializer → List SerialLevels
  | [], r => [r.levels]
  | miso :: rest, r =>
    [r.levels, (r.raise miso).levels, (r.raise miso).lower.levels] ++ Serializer.wave rest (r.clock miso)

/-! ## Bus primitives -/

/-- The environment with one answer taken. -/
def CardSource.advance (c : CardSource) : CardSource :=
  { script := c.script.tail, forever := c.forever, drawn := c.drawn + 1 }

/-- The byte the next exchange receives: a draw (R12, R130; assumption 1). -/
def CardSource.next (c : CardSource) : Byte :=
  match c.script with
  | b :: _ => b
  | [] =>
    match c.forever with
    | some b => b
    | none => Config.cardByte c.drawn

/-- The byte the next exchange receives. -/
def State.draw (s : State) : Byte := s.card.next

/-- `Exchange(tx)` in which the card answers `rx` (R130): eight serial clocks, one record with the select line and clock
speed in force, one answer taken. -/
def State.exchangeWith (tx rx : Byte) (s : State) : State :=
  { s with
    ser := Serializer.shift (bitsMsbFirst rx) (Serializer.load tx)
    trace := s.trace ++ [{ tx := tx, rx := rx, sel := s.sel, clk := s.clk }]
    card := s.card.advance }

/-- `Exchange(tx)` (R130): the card answers with the draw. -/
def State.exchange (tx : Byte) (s : State) : State := s.exchangeWith tx s.draw

/-- `Select()` (R131). -/
def State.select (s : State) : State := { s with sel := true }

/-- `Deselect()` (R132). -/
def State.deselect (s : State) : State := { s with sel := false }

/-- `SetClock(c)` (R134). -/
def State.setClock (c : ClockSpeed) (s : State) : State := { s with clk := c }

/-- The divider the clock switch applies (R134, R9; assumption 21). -/
def State.divider (s : State) : Nat :=
  match s.clk with
  | .slow => Config.divSlow
  | .fast => Config.divFast

/-- The card-side output pins (R136): SCLK and MOSI as the serializer drives them, CS_n low when selected. -/
structure Pins where
  sclk : Bool
  mosi : Bool
  csN : Bool
  deriving DecidableEq, Repr

/-- The levels of the output pins between exchanges (R136). -/
def State.pins (s : State) : Pins := { sclk := s.ser.sclk, mosi := s.ser.txsr.msb, csN := !s.sel }

/-- The levels of the output pins through `Exchange(tx)` in which the card answers `rx`, in order (R135): eight pulses of
SCLK, CS_n as it was. -/
def State.exchangePins (tx rx : Byte) (s : State) : List Pins :=
  (Serializer.wave (bitsMsbFirst rx) (Serializer.load tx)).map fun l => { sclk := l.sclk, mosi := l.mosi, csN := !s.sel }

/-! ## The command framer's entry -/

/-- `SendCommand(index, argument, crc, tlen)` called at `ret`, up to and with its first bus action (R150, R151): the operands
are held in FRAME, TLEN and RET, the card is selected, and the first frame byte is next. -/
def State.sendCommand (index : BitVec 6) (argument : Word32) (crc : Byte) (tlen : Fin 5) (ret : RetPoint) (s : State) :
    State :=
  { s.select with
    frame := { index := index, argument := argument, crc := crc }
    tlen := tlen
    ret := ret
    idx := 0
    phase := .fTx }

/-! ## How an operation ends: the result and the error exit -/

/-- `return E` (R270): the result is recorded, the block is idle, nothing else is saved. -/
def State.finish (r : Result) (s : State) : State :=
  { s with result := r, results := s.results ++ [r], phase := .idle }

/-- The two operations of the block transfer engine. -/
inductive Engine where
  | read
  | write
  deriving DecidableEq, Repr

/-- Where the error exit of an operation starts (R225). -/
def Engine.errDeselect : Engine → Phase
  | .read => .rErrDeselect
  | .write => .wErrDeselect

/-- Where the command of a sector is sent. -/
def Engine.callSite : Engine → Phase
  | .read => .rCmd17
  | .write => .wCmd24

/-- Taking an error of the block transfer engine, `E <- r ; goto .._ERR_DESELECT` (R225, R282): the deselect, the filler and
`return E` follow. -/
def State.takeError (e : Engine) (r : Result) (s : State) : State :=
  { s with err := r, phase := e.errDeselect }

/-- The end of the error exit, `return E` (R225, R230, R240). -/
def State.returnError (s : State) : State := s.finish s.err

/-! ## The reset input -/

/-- The reset input's effect on the block (R310, R311): every register as `State.reset` has it, no bus action, the model's
records empty. What is outside stays: the host's buffer and pending accesses, the card's answers, the parameters
(assumption 10). -/
def State.applyReset (s : State) : State :=
  { State.reset with
    buf := s.buf
    bufLen := s.bufLen
    card := s.card
    hostQueue := s.hostQueue
    par := s.par }

end Sys2Proof.Machine
end

