-- ==== Sys2Proof/Machine/Flags.lean ====
section
/-! DEFINITION. The flags and tests of the block: STAT (R39), the byte tests of T-TOKENS (R106), the branch and capacity
decisions of INIT (R185, R188). -/

namespace Sys2Proof.Machine

/-- The numbers of table T-RESULT (R271). -/
def Result.code : Result → BitVec 3
  | .ok => 0
  | .cmd0Failed => 1
  | .commandRejected => 2
  | .dataTokenTimeout => 3
  | .writeResponseRejected => 4
  | .writeBusyTimeout => 5

/-- `STAT.busy` (R39, R36): an operation is in progress. -/
def State.busy (s : State) : Bool := s.phase != .idle

/-- STAT (R39): clk, sel, capacityClass, initialized, result, busy, from bit 7 down to bit 0. -/
def State.stat (s : State) : Byte :=
  BitVec.ofBool (s.clk == .fast) ++ BitVec.ofBool s.sel ++ BitVec.ofBool (s.capacityClass == .sdhc) ++
    BitVec.ofBool s.initialized ++ s.result.code ++ BitVec.ofBool s.busy

/-- A host read of a register (R38, R39), zero-extended. -/
def State.hostRead (s : State) : HostReg → Word32
  | .reqOp => s.reqOp.zeroExtend 32
  | .reqSector => s.reqSector
  | .reqCount => s.reqCount
  | .stat => s.stat.zeroExtend 32

/-- The static geometry queries (R40): the sector size is fixed, the others are the shim's constants (assumption 21). -/
structure Geometry where
  sectorSize : Nat
  sectorCount : Nat
  eraseBlockSize : Nat
  deriving DecidableEq, Repr

/-- The answers to the static geometry queries (R40). No rule of the block reads them. -/
def geometry : Geometry :=
  { sectorSize := Config.blockLen, sectorCount := Config.sectorCount, eraseBlockSize := Config.eraseBlockSize }

/-- `rx[7] = 0`: the byte is a response and ends the R1 poll (R94, R153). -/
def endsR1Poll (rx : Byte) : Bool := !rx.msb

/-- The v2 test after CMD8 (R185): `(R1 = 0x01) and (TRAIL[2] = 0x01) and (TRAIL[3] = 0xAA)`. -/
def State.v2Test (s : State) : Bool :=
  s.r1 == Config.r1Idle && s.trail.get 2 == Config.echoVolt && s.trail.get 3 == Config.echoPattern

/-- `(TRAIL[0] & 0x40) != 0` (R188). -/
def State.ccs (s : State) : Bool := s.trail.get 0 &&& Config.ocrCcsMask != 0

/-- `(RESP & 0x1F) = 0x05` (R98, R244). -/
def accepted (resp : Byte) : Bool := resp &&& Config.respMask == Config.respAccepted

/-- The card reports busy: the byte is exactly 0x00 (R99). -/
def reportsBusy (rx : Byte) : Bool := rx == Config.busyByte

end Sys2Proof.Machine
end

