-- ==== Sys2Proof/Syntax.lean ====
section
/-! DEFINITION. The rows of spec/opcode_table.json, one constructor each: eight command frames, three host operations,
twelve one-byte tokens. An operand is what the row's encoding leaves free: the `crc` byte and the argument of a frame, the
sector and count of a request, the whole byte of a token whose mask leaves bits open (WellFormed.lean says which bytes). -/

namespace Sys2Proof

/-- One row of the opcode table, with its operands. -/
inductive Instr where
  /-- CMD0, R160. -/
  | cmd0 (crc : Byte)
  /-- CMD8, R161. -/
  | cmd8 (crc : Byte)
  /-- CMD55, R162. -/
  | cmd55 (crc : Byte)
  /-- ACMD41_V2, CMD41 with argument 0x40000000, R163. -/
  | acmd41V2 (crc : Byte)
  /-- ACMD41_LEGACY, CMD41 with argument 0, R163. -/
  | acmd41Legacy (crc : Byte)
  /-- CMD58, R164. -/
  | cmd58 (crc : Byte)
  /-- CMD17, R165. -/
  | cmd17 (argument : Word32) (crc : Byte)
  /-- CMD24, R166. -/
  | cmd24 (argument : Word32) (crc : Byte)
  /-- INIT, R180. Its operand fields are ignored by the operation. -/
  | init (startSector count : Word32)
  /-- READ_BLOCKS, R230. -/
  | readBlocks (startSector count : Word32)
  /-- WRITE_BLOCKS, R240. -/
  | writeBlocks (startSector count : Word32)
  /-- FILLER, sent to receive or to idle, R100. -/
  | filler
  /-- START_TOKEN_TX, sent before the data of a write, R97. -/
  | startTokenTx
  /-- DUMMY_CRC, sent twice after the data of a write, R97. -/
  | dummyCrc
  /-- R1_VALID, a byte with bit 7 clear that ends the R1 poll, R94. -/
  | r1Valid (byte : Byte)
  /-- R1_IDLE, the R1 value 0x01, R94. -/
  | r1Idle
  /-- R1_READY, the R1 value 0x00, R94. -/
  | r1Ready
  /-- START_TOKEN_RX, ends the token poll of a read, R96. -/
  | startTokenRx
  /-- DATA_ACCEPTED, a data-response token whose low 5 bits are 00101, R98. -/
  | dataAccepted (byte : Byte)
  /-- BUSY_BYTE, keeps the write busy-wait going, R99. -/
  | busyByte
  /-- ECHO_VOLT, TRAIL[2] after CMD8, R95. -/
  | echoVolt
  /-- ECHO_PATTERN, TRAIL[3] after CMD8, R95. -/
  | echoPattern
  /-- OCR_CCS, TRAIL[0] after CMD58 with bit 6 set, R95. -/
  | ocrCcs (byte : Byte)
  deriving DecidableEq, Repr

end Sys2Proof
end

