-- ==== Sys2Proof/Decode.lean ====
section
/-! DEFINITION. Decoding of the wire and request encodings (30_encoding.md), total on any bytes, and the encoder.

A word is read in a FORMAT, as the opcode table's `format` column names it: the same byte means different things at different
program points, and two rows are alternatives of one another only when their format names are equal (R106). -/

namespace Sys2Proof

/-- The format names of the opcode table. -/
inductive Format where
  /-- CMDFRAME, 6 bytes (R91). -/
  | cmdFrame
  /-- HOSTREQ, 66 bits in 9 bytes, most significant byte first, the six bits above bit 65 zero (R101; assumption 23). -/
  | hostReq
  /-- TOKEN8.tx -/
  | tx
  /-- TOKEN8.tx_crc -/
  | txCrc
  /-- TOKEN8.r1_poll -/
  | r1Poll
  /-- TOKEN8.r1_test -/
  | r1Test
  /-- TOKEN8.read_token -/
  | readToken
  /-- TOKEN8.data_response -/
  | dataResponse
  /-- TOKEN8.busy -/
  | busy
  /-- TOKEN8.r7_byte2 -/
  | r7Byte2
  /-- TOKEN8.r7_byte3 -/
  | r7Byte3
  /-- TOKEN8.ocr_byte0 -/
  | ocrByte0
  deriving DecidableEq, Repr

/-- Why a word is no instruction of its format. -/
inductive DecodeError where
  /-- Not the number of bytes of the format. -/
  | wrongLength
  /-- Frame bits 47:46 are not 01 (R91). -/
  | notAFrame
  /-- A command index the block never emits (R108). -/
  | indexNotEmitted
  /-- An argument the block never sends with this index (R103, R105). -/
  | argumentNotEmitted
  /-- REQ_OP = 0, a request for nothing (R110). -/
  | noOperation
  /-- Bits above bit 65 of a request word are not zero (R101). -/
  | reservedBits
  /-- No token of the format matches the byte (R106). -/
  | notAToken
  deriving DecidableEq, Repr

/-- The most significant byte first (R65). -/
def beBytes (w : Word32) : List Byte :=
  [w.extractLsb' 24 8, w.extractLsb' 16 8, w.extractLsb' 8 8, w.extractLsb' 0 8]

/-- The word four bytes spell, most significant first (R65). -/
def beWord (b3 b2 b1 b0 : Byte) : Word32 := b3 ++ b2 ++ b1 ++ b0

/-- A frame by its index, argument and crc (table T-FRAMES, R105). -/
def decodeFrame (index : BitVec 6) (argument : Word32) (crc : Byte) : Except DecodeError Instr :=
  if index = 0 then (if argument = 0 then .ok (.cmd0 crc) else .error .argumentNotEmitted)
  else if index = 8 then (if argument = Config.argCmd8 then .ok (.cmd8 crc) else .error .argumentNotEmitted)
  else if index = 55 then (if argument = 0 then .ok (.cmd55 crc) else .error .argumentNotEmitted)
  else if index = 41 then
    (if argument = Config.argAcmd41V2 then .ok (.acmd41V2 crc)
     else if argument = Config.argAcmd41Legacy then .ok (.acmd41Legacy crc)
     else .error .argumentNotEmitted)
  else if index = 58 then (if argument = 0 then .ok (.cmd58 crc) else .error .argumentNotEmitted)
  else if index = 17 then .ok (.cmd17 argument crc)
  else if index = 24 then .ok (.cmd24 argument crc)
  else .error .indexNotEmitted

/-- A host request by its three fields (R101, R107, R110). -/
def decodeRequest (op : BitVec 2) (sector count : Word32) : Except DecodeError Instr :=
  if op = 1 then .ok (.init sector count)
  else if op = 2 then .ok (.readBlocks sector count)
  else if op = 3 then .ok (.writeBlocks sector count)
  else .error .noOperation

/-- A one-byte token by the match and mask of T-TOKENS (R106). -/
def decodeToken : Format → Byte → Except DecodeError Instr
  | .tx, b => if b = 0xFF then .ok .filler else if b = 0xFE then .ok .startTokenTx else .error .notAToken
  | .txCrc, b => if b = 0xFF then .ok .dummyCrc else .error .notAToken
  | .r1Poll, b => if b &&& 0x80 = 0x00 then .ok (.r1Valid b) else .error .notAToken
  | .r1Test, b => if b = 0x01 then .ok .r1Idle else if b = 0x00 then .ok .r1Ready else .error .notAToken
  | .readToken, b => if b = 0xFE then .ok .startTokenRx else .error .notAToken
  | .dataResponse, b => if b &&& 0x1F = 0x05 then .ok (.dataAccepted b) else .error .notAToken
  | .busy, b => if b = 0x00 then .ok .busyByte else .error .notAToken
  | .r7Byte2, b => if b = 0x01 then .ok .echoVolt else .error .notAToken
  | .r7Byte3, b => if b = 0xAA then .ok .echoPattern else .error .notAToken
  | .ocrByte0, b => if b &&& 0x40 = 0x40 then .ok (.ocrCcs b) else .error .notAToken
  | .cmdFrame, _ => .error .wrongLength
  | .hostReq, _ => .error .wrongLength

/-- The instruction a word of a format spells, or the reason it spells none. -/
def decode : Format → List Byte → Except DecodeError Instr
  | .cmdFrame, [b0, b1, b2, b3, b4, b5] =>
    if b0.extractLsb' 6 2 = 0b01 then decodeFrame (b0.extractLsb' 0 6) (beWord b1 b2 b3 b4) b5
    else .error .notAFrame
  | .cmdFrame, _ => .error .wrongLength
  | .hostReq, [h, s3, s2, s1, s0, c3, c2, c1, c0] =>
    if h.extractLsb' 2 6 = 0 then decodeRequest (h.extractLsb' 0 2) (beWord s3 s2 s1 s0) (beWord c3 c2 c1 c0)
    else .error .reservedBits
  | .hostReq, _ => .error .wrongLength
  | f, [b] => decodeToken f b
  | _, _ => .error .wrongLength

/-! ## The encoder, written from the encoding tables T-CMDFRAME, T-FRAMES, T-TOKENS and from R101, R107 -/

/-- The format an instruction's word is written in. -/
def Instr.format : Instr → Format
  | .cmd0 _ | .cmd8 _ | .cmd55 _ | .acmd41V2 _ | .acmd41Legacy _ | .cmd58 _ | .cmd17 _ _ | .cmd24 _ _ => .cmdFrame
  | .init _ _ | .readBlocks _ _ | .writeBlocks _ _ => .hostReq
  | .filler | .startTokenTx => .tx
  | .dummyCrc => .txCrc
  | .r1Valid _ => .r1Poll
  | .r1Idle | .r1Ready => .r1Test
  | .startTokenRx => .readToken
  | .dataAccepted _ => .dataResponse
  | .busyByte => .busy
  | .echoVolt => .r7Byte2
  | .echoPattern => .r7Byte3
  | .ocrCcs _ => .ocrByte0

/-- T-CMDFRAME: start bit 0, transmission bit 1, the index, the argument most significant byte first, the crc byte. -/
def encodeFrame (index : BitVec 6) (argument : Word32) (crc : Byte) : List Byte :=
  [(0b01#2 ++ index : BitVec 8)] ++ beBytes argument ++ [crc]

/-- R101: `op[65:64] ‖ sector[63:32] ‖ count[31:0]`, six zero bits in front (assumption 23). -/
def encodeRequest (op : BitVec 2) (sector count : Word32) : List Byte :=
  [(0#6 ++ op : BitVec 8)] ++ beBytes sector ++ beBytes count

/-- The word of an instruction. -/
def encode : Instr → List Byte
  | .cmd0 crc => encodeFrame 0 0x00000000 crc
  | .cmd8 crc => encodeFrame 8 0x000001AA crc
  | .cmd55 crc => encodeFrame 55 0x00000000 crc
  | .acmd41V2 crc => encodeFrame 41 0x40000000 crc
  | .acmd41Legacy crc => encodeFrame 41 0x00000000 crc
  | .cmd58 crc => encodeFrame 58 0x00000000 crc
  | .cmd17 argument crc => encodeFrame 17 argument crc
  | .cmd24 argument crc => encodeFrame 24 argument crc
  | .init sector count => encodeRequest 1 sector count
  | .readBlocks sector count => encodeRequest 2 sector count
  | .writeBlocks sector count => encodeRequest 3 sector count
  | .filler => [0xFF]
  | .startTokenTx => [0xFE]
  | .dummyCrc => [0xFF]
  | .r1Valid b => [b]
  | .r1Idle => [0x01]
  | .r1Ready => [0x00]
  | .startTokenRx => [0xFE]
  | .dataAccepted b => [b]
  | .busyByte => [0x00]
  | .echoVolt => [0x01]
  | .echoPattern => [0xAA]
  | .ocrCcs b => [b]

/-! ## The opcode table's words -/

/-- The first of several readings of a word that decodes. -/
def firstDecoded : List (Format × List Byte) → Option Instr
  | [] => none
  | (f, bytes) :: rest =>
    match decode f bytes with
    | .ok i => some i
    | .error _ => firstDecoded rest

/-- The `n` bytes of a number, most significant first: byte 0 of a frame is bits 47:40 (R10). -/
def tableBytes : Nat → Nat → List Byte
  | 0, _ => []
  | n + 1, w => BitVec.ofNat 8 (w / 256 ^ n) :: tableBytes n w

/-- The readings of a table word. A bare byte has no program point, so it is tried in the formats in this fixed order, the
rows that leave fewest bits open first; the rows a bare byte cannot reach are in assumption 4. -/
def tableReadings (nbits w : Nat) : List (Format × List Byte) :=
  if nbits = 48 then [(.cmdFrame, tableBytes 6 w)]
  else if nbits = 72 ∨ nbits = 66 then [(.hostReq, tableBytes 9 w)]
  else if nbits = 8 then
    [Format.tx, .r1Test, .r7Byte3, .dataResponse, .ocrByte0, .r1Poll].map fun f => (f, tableBytes 1 w)
  else []

/-- The instruction of a word numbered as spec/opcode_table.json numbers it. A word with bits beyond its width is none. -/
def decodeTableWord (nbits w : Nat) : Option Instr :=
  if w < 2 ^ nbits then firstDecoded (tableReadings nbits w) else none

end Sys2Proof
end

