-- ==== Sys2Proof/Machine/Operands.lean ====
section
/-! DEFINITION. The operands of the commands: the sector address, the frame bytes, the operands of each call of SendCommand
(30_encoding.md section 2, 43_block_transfer.md R220). -/

namespace Sys2Proof.Machine

/-- `EncodeAddress(class, sector)` (R220, R74). -/
def encodeAddress : CapacityClass → Word32 → Word32
  | .sdhc, sector => sector
  | .sdsc, sector => sector * 512

/-- The byte at F_TX(k) (R150, R152): `0x40 | index`, the argument most significant byte first, the crc verbatim. -/
def Frame.byte (f : Frame) : Nat → Byte
  | 0 => Config.cmdPrefix ||| f.index.zeroExtend 8
  | 1 => f.argument.extractLsb' 24 8
  | 2 => f.argument.extractLsb' 16 8
  | 3 => f.argument.extractLsb' 8 8
  | 4 => f.argument.extractLsb' 0 8
  | _ => f.crc

/-- The six bytes of a frame in wire order (R91). -/
def Frame.bytes (f : Frame) : List Byte := [f.byte 0, f.byte 1, f.byte 2, f.byte 3, f.byte 4, f.byte 5]

/-- `arg41` (R180): the argument of CMD41, by the branch INIT took. -/
def State.arg41 (s : State) : Word32 := if s.v2 then Config.argAcmd41V2 else Config.argAcmd41Legacy

/-- The frame of the SendCommand call at each call site (R180, R230, R240; table T-FRAMES, R105). -/
def State.callFrame (s : State) : RetPoint → Frame
  | .iCmd0 => { index := 0, argument := 0, crc := s.par.crcCmd0 }
  | .iCmd8 => { index := 8, argument := Config.argCmd8, crc := s.par.crcCmd8 }
  | .iLoop55 => { index := 55, argument := 0, crc := s.par.crcOther }
  | .iLoop41 => { index := 41, argument := s.arg41, crc := s.par.crcOther }
  | .iCmd58 => { index := 58, argument := 0, crc := s.par.crcOther }
  | .rCmd17 => { index := 17, argument := encodeAddress s.capacityClass s.sector, crc := s.par.crcOther }
  | .wCmd24 => { index := 24, argument := encodeAddress s.capacityClass s.sector, crc := s.par.crcOther }

/-- The bytes of the HOSTREQ word (R101; assumption 23). -/
def requestBytes (op : BitVec 2) (sector count : Word32) : List Byte :=
  [(0#6 ++ op : BitVec 8)] ++ beBytes sector ++ beBytes count

end Sys2Proof.Machine
end

