-- ==== Sys2Proof/Machine/Sequencer.lean ====
section
/-! DEFINITION. The control flow of the pseudocode between bus actions: what the caller of SendCommand does with the answer
(R180, R230, R240), the sector iteration (R221), the ends of the byte loops and of the polls. Each definition takes the state
right after an exchange and gives the next program point. -/

namespace Sys2Proof.Machine

/-! ## INIT, after each of its commands (42_init_sequencer.md) -/

/-- After CMD0 (R183): `R1 = 0x01` goes on to CMD8, anything else returns Cmd0Failed at once, with no bus action. -/
def State.afterCmd0 (s : State) : State :=
  if s.r1 = Config.r1Idle then { s with phase := .iCmd8 } else s.finish .cmd0Failed

/-- After CMD8 (R185, R186, R187): the branch is chosen and the ACMD41 loop entered. -/
def State.afterCmd8 (s : State) : State :=
  { s with v2 := s.v2Test, retry := 0, phase := .iLoop55 }

/-- After CMD55 (R187): its response is ignored. -/
def State.afterCmd55 (s : State) : State := { s with phase := .iLoop41 }

/-- Leaving the ACMD41 loop (R186, R190): the v2 branch reads the OCR, the legacy branch fixes SDSC and finalizes. -/
def State.leaveLoop (s : State) : State :=
  if s.v2 then { s with phase := .iCmd58 } else { s with capacityClass := .sdsc, phase := .iFinDeselect }

/-- After CMD41 (R187, R194): one iteration more; the loop ends on `R1 = 0x00` or after N_ACMD41 iterations. -/
def State.afterCmd41 (s : State) : State :=
  let s := { s with retry := s.retry + 1 }
  if s.r1 = Config.r1Ready ∨ s.retry = Config.nAcmd41 then s.leaveLoop else { s with phase := .iLoop55 }

/-- After CMD58 (R188, R189): with `R1 = 0x00` the capacity class is bit 6 of the OCR's first byte, else it is kept. -/
def State.afterCmd58 (s : State) : State :=
  { s with
    capacityClass := if s.r1 = Config.r1Ready then (if s.ccs then .sdhc else .sdsc) else s.capacityClass
    phase := .iFinDeselect }

/-! ## The transfer engine, after its command (43_block_transfer.md) -/

/-- After CMD17 (R232, R234): `R1 = 0x00` starts the token poll, anything else is CommandRejected. -/
def State.afterCmd17 (s : State) : State :=
  if s.r1 = Config.r1Ready then { s with poll := 0, phase := .rToken } else s.takeError .read .commandRejected

/-- After CMD24 (R242, R243): `R1 = 0x00` goes on to the data packet, anything else is CommandRejected. -/
def State.afterCmd24 (s : State) : State :=
  if s.r1 = Config.r1Ready then { s with phase := .wGap } else s.takeError .write .commandRejected

/-- `continue at RET` (R150, R35): the caller goes on where its SendCommand stood. -/
def State.resume (s : State) : State :=
  match s.ret with
  | .iCmd0 => s.afterCmd0
  | .iCmd8 => s.afterCmd8
  | .iLoop55 => s.afterCmd55
  | .iLoop41 => s.afterCmd41
  | .iCmd58 => s.afterCmd58
  | .rCmd17 => s.afterCmd17
  | .wCmd24 => s.afterCmd24

/-! ## The command framer's loops (R150 to R154) -/

/-- After the exchange of F_TX(k) (R152): the next frame byte, or the R1 poll with POLL at 0. -/
def State.afterFrameByte (s : State) : State :=
  let s := { s with idx := s.idx + 1 }
  if s.idx < Config.frameLen then s else { s with poll := 0, phase := .fPoll }

/-- The R1 poll is over (R153, R154): the trailing bytes are fetched, or the caller goes on. -/
def State.endPoll (s : State) : State :=
  let s := { s with idx := 0 }
  if s.idx < s.tlen.val then { s with phase := .fTrail } else s.resume

/-- After an exchange of the R1 poll that received `rx` (R153). -/
def State.pollR1 (rx : Byte) (s : State) : State :=
  let s := { s with poll := s.poll + 1, r1 := rx }
  if endsR1Poll rx ∨ s.poll = Config.nCmdPoll then s.endPoll else s

/-- After the trailing exchange number `j` that received `rx` (R154): TRAIL[j] is written, the next one is due or the caller
goes on. -/
def State.storeTrail (j : Nat) (rx : Byte) (s : State) : State :=
  let s := { s with trail := s.trail.set j rx, idx := j + 1 }
  if s.idx < s.tlen.val then { s with phase := .fTrail } else s.resume

/-! ## INIT's power-up fillers (R182) -/

/-- After the exchange of I_POWERUP(k). -/
def State.afterPowerup (s : State) : State :=
  let s := { s with idx := s.idx + 1 }
  if s.idx < Config.nPowerup then s else { s with phase := .iCmd0 }

/-! ## The sector iteration (R221) -/

/-- `SECTOR <- startSector ; REMAIN <- count ; OFFSET <- 0` (R221): the operands held are copied (R38). -/
def State.loadOperands (s : State) : State :=
  { s with sector := s.reqSector, remain := s.reqCount, offset := 0 }

/-- The updates after a completed sector: OFFSET + 512, (SECTOR + 1) mod 2^32, REMAIN - 1. -/
def State.advanceSector (s : State) : State :=
  { s with offset := s.offset + Config.blockLen, sector := s.sector + 1, remain := s.remain - 1 }

/-- `next:` (R230, R240): OK when no sector remains, else the next sector's command is due. -/
def State.nextSector (e : Engine) (s : State) : State :=
  if s.remain = 0 then s.finish .ok else { s with phase := e.callSite }

/-! ## READ_BLOCKS (R234, R235) -/

/-- After an exchange of the token poll that received `rx` (R234). -/
def State.pollToken (rx : Byte) (s : State) : State :=
  let s := { s with poll := s.poll + 1 }
  if rx = Config.startToken then { s with idx := 0, phase := .rData }
  else if s.poll = Config.nTokenPoll then s.takeError .read .dataTokenTimeout
  else s

/-- After a data byte of a read is stored (R235). -/
def State.afterReadByte (s : State) : State :=
  let s := { s with idx := s.idx + 1 }
  if s.idx < Config.blockLen then s else { s with idx := 0, phase := .rCrc }

/-- After the exchange of R_CRC(k) (R235). -/
def State.afterReadCrc (s : State) : State :=
  let s := { s with idx := s.idx + 1 }
  if s.idx < Config.nDataCrc then s else { s with phase := .rEndDeselect }

/-! ## WRITE_BLOCKS (R243 to R245, R248) -/

/-- After the start token of a write is sent (R243). -/
def State.afterStartToken (s : State) : State := { s with idx := 0, phase := .wData }

/-- After a data byte of a write is sent (R243). -/
def State.afterWriteByte (s : State) : State :=
  let s := { s with idx := s.idx + 1 }
  if s.idx < Config.blockLen then s else { s with idx := 0, phase := .wCrc }

/-- After the exchange of W_CRC(k) (R243). -/
def State.afterWriteCrc (s : State) : State :=
  let s := { s with idx := s.idx + 1 }
  if s.idx < Config.nDataCrc then s else { s with phase := .wResp }

/-- The busy-wait is entered (R245; R248: only the bounded variant counts). -/
def State.enterBusy (s : State) : State :=
  match s.par.writeBusyBound with
  | none => { s with phase := .wBusy }
  | some _ => { s with poll := 0, phase := .wBusy }

/-- After the data-response exchange that received `rx` (R244). -/
def State.judgeResponse (rx : Byte) (s : State) : State :=
  let s := { s with resp := rx }
  if accepted rx then s.enterBusy else s.takeError .write .writeResponseRejected

/-- After an exchange of the busy-wait that received `rx` (R245, and R248 under a bound). -/
def State.busyWait (rx : Byte) (s : State) : State :=
  match s.par.writeBusyBound with
  | none => if reportsBusy rx then s else { s with phase := .wEndDeselect }
  | some bound =>
    let s := { s with poll := s.poll + 1 }
    if reportsBusy rx then (if s.poll = bound then s.takeError .write .writeBusyTimeout else s)
    else { s with phase := .wEndDeselect }

/-! ## All exchange points -/

/-- What the block does with the byte an exchange received at the current program point, up to the next bus action (R34,
R109). The state is the one right after the exchange. At a point where no exchange is due the byte is discarded
(assumption 24). -/
def State.receive (rx : Byte) (s : State) : Host.Outcome State Fault Refusal :=
  match s.phase with
  | .fTx => .next s.afterFrameByte
  | .fPoll => .next (s.pollR1 rx)
  | .fTrail => .next (s.storeTrail s.idx rx)
  | .iPowerup => .next s.afterPowerup
  | .iFinFiller => .next { s with phase := .iFinFast }
  | .rToken => .next (s.pollToken rx)
  | .rData =>
    match s.bufWrite (s.offset + s.idx) rx with
    | some s' => .next s'.afterReadByte
    | none => .fault .bufferOutOfRange
  | .rCrc => .next s.afterReadCrc
  | .rEndFiller => .next (s.advanceSector.nextSector .read)
  | .rErrFiller => .next s.returnError
  | .wGap => .next { s with phase := .wReselect }
  | .wToken => .next s.afterStartToken
  | .wData => .next s.afterWriteByte
  | .wCrc => .next s.afterWriteCrc
  | .wResp => .next (s.judgeResponse rx)
  | .wBusy => .next (s.busyWait rx)
  | .wEndFiller => .next (s.advanceSector.nextSector .write)
  | .wErrFiller => .next s.returnError
  | .idle | .fSelect | .iEntry | .iCmd0 | .iCmd8 | .iLoop55 | .iLoop41 | .iCmd58 | .iFinDeselect | .iFinFast | .rHead
  | .rCmd17 | .rEndDeselect | .rErrDeselect | .wHead | .wCmd24 | .wReselect | .wEndDeselect | .wErrDeselect => .next s

/-- One exchange at the current program point: `tx` goes out, the draw comes in, and the block goes on. -/
def State.exchangeAndReceive (tx : Byte) (s : State) : Host.Outcome State Fault Refusal :=
  (s.exchange tx).receive s.draw

end Sys2Proof.Machine
end

