-- ==== Sys2Proof/Machine/Frames.lean ====
section
/-! DEFINITION. The eight command frames (R160 to R166): each is a SendCommand with the operands of its rule, entered here up
to and with its first bus action, the Select (R34). The frame bytes, the poll and the trailing bytes are the steps at F_TX,
F_POLL and F_TRAIL; the caller's use of the answer is `State.resume`. -/

namespace Sys2Proof.Machine

/-- CMD0 (R160): `SendCommand(0, 0x00000000, crc, 0)`. -/
def execCmd0 (crc : Byte) (s : State) : Host.Outcome State Fault Refusal :=
  .next (s.sendCommand 0 0x00000000 crc 0 .iCmd0)

/-- CMD8 (R161): `SendCommand(8, 0x000001AA, crc, 4)`. -/
def execCmd8 (crc : Byte) (s : State) : Host.Outcome State Fault Refusal :=
  .next (s.sendCommand 8 Config.argCmd8 crc 4 .iCmd8)

/-- CMD55 (R162): `SendCommand(55, 0x00000000, crc, 0)`. -/
def execCmd55 (crc : Byte) (s : State) : Host.Outcome State Fault Refusal :=
  .next (s.sendCommand 55 0x00000000 crc 0 .iLoop55)

/-- CMD41 of the v2 branch (R163): `SendCommand(41, 0x40000000, crc, 0)`. -/
def execAcmd41V2 (crc : Byte) (s : State) : Host.Outcome State Fault Refusal :=
  .next (s.sendCommand 41 Config.argAcmd41V2 crc 0 .iLoop41)

/-- CMD41 of the legacy branch (R163): `SendCommand(41, 0x00000000, crc, 0)`. -/
def execAcmd41Legacy (crc : Byte) (s : State) : Host.Outcome State Fault Refusal :=
  .next (s.sendCommand 41 Config.argAcmd41Legacy crc 0 .iLoop41)

/-- CMD58 (R164): `SendCommand(58, 0x00000000, crc, 4)`. -/
def execCmd58 (crc : Byte) (s : State) : Host.Outcome State Fault Refusal :=
  .next (s.sendCommand 58 0x00000000 crc 4 .iCmd58)

/-- CMD17 (R165): `SendCommand(17, argument, crc, 0)`. -/
def execCmd17 (argument : Word32) (crc : Byte) (s : State) : Host.Outcome State Fault Refusal :=
  .next (s.sendCommand 17 argument crc 0 .rCmd17)

/-- CMD24 (R166): `SendCommand(24, argument, crc, 0)`. -/
def execCmd24 (argument : Word32) (crc : Byte) (s : State) : Host.Outcome State Fault Refusal :=
  .next (s.sendCommand 24 argument crc 0 .wCmd24)

end Sys2Proof.Machine
end

