-- ==== Sys2Proof/Machine/HostOps.lean ====
section
/-! DEFINITION. The three host operations (R180, R230, R240) as the request that starts them (R36, R38), and the host's other
accesses. The operation itself is the steps at its program points. -/

namespace Sys2Proof.Machine

/-- A request accepted while idle (R36, R38): the registers hold the request, the operation is at its first program point. -/
def State.start (op : BitVec 2) (sector count : Word32) (entry : Phase) (s : State) : State :=
  { s with reqOp := op, reqSector := sector, reqCount := count, phase := entry }

/-- INIT (R180): starts at I_ENTRY; its operands are ignored. A request while busy has no meaning (U3). -/
def execInit (sector count : Word32) (s : State) : Host.Outcome State Fault Refusal :=
  if s.busy then .refused .requestWhileBusy else .next (s.start 1 sector count .iEntry)

/-- READ_BLOCKS (R230): starts at R_HEAD, the operands copied into SECTOR and REMAIN (R38, R221; assumption 2). A request
while busy (U3) or with a buffer of fewer than `count x 512` bytes (U7) has no meaning. -/
def execReadBlocks (sector count : Word32) (s : State) : Host.Outcome State Fault Refusal :=
  if s.busy then .refused .requestWhileBusy
  else if s.bufLen < count.toNat * Config.blockLen then .refused .bufferTooShort
  else .next (s.start 2 sector count .rHead).loadOperands

/-- WRITE_BLOCKS (R240): starts at W_HEAD, the operands copied into SECTOR and REMAIN (R38, R221; assumption 2). A request
while busy (U3) or with a buffer of fewer than `count x 512` bytes (U7) has no meaning. -/
def execWriteBlocks (sector count : Word32) (s : State) : Host.Outcome State Fault Refusal :=
  if s.busy then .refused .requestWhileBusy
  else if s.bufLen < count.toNat * Config.blockLen then .refused .bufferTooShort
  else .next (s.start 3 sector count .wHead).loadOperands

/-! ## The host's accesses -/

/-- The accesses the host makes only while `STAT.busy = 0`: a non-zero write of REQ_OP (R314, U3) and a binding of the buffer
(R324). The others it may make at any time (R38, R39). -/
def HostAccess.needsIdle : HostAccess → Bool
  | .write .reqOp value => value.extractLsb' 0 2 != 0
  | .write .reqSector _ | .write .reqCount _ | .write .stat _ => false
  | .bindBuffer _ => true
  | .pass => false

/-- What an access writes (R38, R39, R60, R110): REQ_SECTOR and REQ_COUNT hold what is written, STAT ignores writes, a buffer
is bound. A write of REQ_OP writes nothing by itself: zero does nothing (assumption 8), and a non-zero value is the
instruction due, whose meaning starts the operation. -/
def State.access (a : HostAccess) (s : State) : State :=
  match a with
  | .write .reqSector value => { s with reqSector := value }
  | .write .reqCount value => { s with reqCount := value }
  | .write .reqOp _ | .write .stat _ | .pass => s
  | .bindBuffer bytes => s.bindBuffer bytes

/-- What a step does before it runs what is due: the host's next access is taken, but for one that waits until the block is
idle (R38, R314; assumption 5). -/
def State.arrive (s : State) : State :=
  match s.hostQueue with
  | [] => s
  | a :: rest => if s.busy && a.needsIdle then s else { s with hostQueue := rest }.access a

end Sys2Proof.Machine
end

