-- ==== Sys2Proof/Machine/Tokens.lean ====
section
/-! DEFINITION. The twelve one-byte tokens (T-TOKENS, R106). An exchange is full duplex: a token sent is an exchange that
transmits it and receives the draw; a token received is an exchange that transmits FILLER (R100) and receives that token. Each
meaning is the whole exchange and what the block then does, up to the next bus action (R34). As a processor's instruction does
not check that the program counter points at it, a token's meaning does not check PHASE: Fetch.lean says at which program
points a byte is which token (assumption 3). -/

namespace Sys2Proof.Machine

/-- FILLER (R100): `Exchange(0xFF)` at the current program point, whatever the card answers. -/
def execFiller (s : State) : Host.Outcome State Fault Refusal := s.exchangeAndReceive Config.filler

/-- START_TOKEN_TX (R97, R243): `Exchange(0xFE)`, the answer discarded, the data bytes next. -/
def execStartTokenTx (s : State) : Host.Outcome State Fault Refusal :=
  .next (s.exchange Config.startToken).afterStartToken

/-- DUMMY_CRC (R97, R243): `Exchange(0xFF)`, the answer discarded, the other CRC byte or the data response next. -/
def execDummyCrc (s : State) : Host.Outcome State Fault Refusal :=
  .next (s.exchange Config.dummyCrc).afterWriteCrc

/-- R1_VALID (R94, R153): the byte received in the R1 poll becomes R1 and, its bit 7 being clear, ends the poll. -/
def execR1Valid (byte : Byte) (s : State) : Host.Outcome State Fault Refusal :=
  .next ((s.exchangeWith Config.filler byte).pollR1 byte)

/-- R1_IDLE (R94, R153): 0x01 becomes R1 and ends the poll; the caller tests it when the command exchange is over. -/
def execR1Idle (s : State) : Host.Outcome State Fault Refusal :=
  .next ((s.exchangeWith Config.filler Config.r1Idle).pollR1 Config.r1Idle)

/-- R1_READY (R94, R153): 0x00 becomes R1 and ends the poll; the caller tests it when the command exchange is over. -/
def execR1Ready (s : State) : Host.Outcome State Fault Refusal :=
  .next ((s.exchangeWith Config.filler Config.r1Ready).pollR1 Config.r1Ready)

/-- START_TOKEN_RX (R96, R234): 0xFE received in the token poll, the data bytes next. -/
def execStartTokenRx (s : State) : Host.Outcome State Fault Refusal :=
  .next ((s.exchangeWith Config.filler Config.startToken).pollToken Config.startToken)

/-- DATA_ACCEPTED (R98, R244): the data-response token; its low 5 bits accept the block, the busy-wait is next. -/
def execDataAccepted (byte : Byte) (s : State) : Host.Outcome State Fault Refusal :=
  .next ((s.exchangeWith Config.filler byte).judgeResponse byte)

/-- BUSY_BYTE (R99, R245): 0x00 received in the busy-wait, which goes on (or, under a bound, runs out: R248). -/
def execBusyByte (s : State) : Host.Outcome State Fault Refusal :=
  .next ((s.exchangeWith Config.filler Config.busyByte).busyWait Config.busyByte)

/-- ECHO_VOLT (R95, R154): 0x01 received into TRAIL[2]. -/
def execEchoVolt (s : State) : Host.Outcome State Fault Refusal :=
  .next ((s.exchangeWith Config.filler Config.echoVolt).storeTrail 2 Config.echoVolt)

/-- ECHO_PATTERN (R95, R154): 0xAA received into TRAIL[3]. -/
def execEchoPattern (s : State) : Host.Outcome State Fault Refusal :=
  .next ((s.exchangeWith Config.filler Config.echoPattern).storeTrail 3 Config.echoPattern)

/-- OCR_CCS (R95, R154): the OCR's first byte, bit 6 set, received into TRAIL[0]. -/
def execOcrCcs (byte : Byte) (s : State) : Host.Outcome State Fault Refusal :=
  .next ((s.exchangeWith Config.filler byte).storeTrail 0 byte)

end Sys2Proof.Machine
end

