-- ==== Sys2Proof/Machine/Dispatch.lean ====
section
/-! DEFINITION. One arm per row of the opcode table. -/

namespace Sys2Proof.Machine

def exec (i : Instr) (s : State) : Host.Outcome State Fault Refusal :=
  match i with
  | .cmd0 crc => Sys2Proof.Machine.execCmd0 crc s
  | .cmd8 crc => Sys2Proof.Machine.execCmd8 crc s
  | .cmd55 crc => Sys2Proof.Machine.execCmd55 crc s
  | .acmd41V2 crc => Sys2Proof.Machine.execAcmd41V2 crc s
  | .acmd41Legacy crc => Sys2Proof.Machine.execAcmd41Legacy crc s
  | .cmd58 crc => Sys2Proof.Machine.execCmd58 crc s
  | .cmd17 argument crc => Sys2Proof.Machine.execCmd17 argument crc s
  | .cmd24 argument crc => Sys2Proof.Machine.execCmd24 argument crc s
  | .init sector count => Sys2Proof.Machine.execInit sector count s
  | .readBlocks sector count => Sys2Proof.Machine.execReadBlocks sector count s
  | .writeBlocks sector count => Sys2Proof.Machine.execWriteBlocks sector count s
  | .filler => Sys2Proof.Machine.execFiller s
  | .startTokenTx => Sys2Proof.Machine.execStartTokenTx s
  | .dummyCrc => Sys2Proof.Machine.execDummyCrc s
  | .r1Valid byte => Sys2Proof.Machine.execR1Valid byte s
  | .r1Idle => Sys2Proof.Machine.execR1Idle s
  | .r1Ready => Sys2Proof.Machine.execR1Ready s
  | .startTokenRx => Sys2Proof.Machine.execStartTokenRx s
  | .dataAccepted byte => Sys2Proof.Machine.execDataAccepted byte s
  | .busyByte => Sys2Proof.Machine.execBusyByte s
  | .echoVolt => Sys2Proof.Machine.execEchoVolt s
  | .echoPattern => Sys2Proof.Machine.execEchoPattern s
  | .ocrCcs byte => Sys2Proof.Machine.execOcrCcs byte s

end Sys2Proof.Machine
end

