-- ==== Sys2Proof/Machine/Fetch.lean ====
section
/-! DEFINITION. What stands at a program point: the words due there, the steps that are no row of the opcode table, and where
a given word is placed so that it is due next. -/

namespace Sys2Proof.Machine

/-! ## The words due at a program point -/

/-- The frame a call site sends, as its six bytes (R91, R105). -/
def State.callWord (p : RetPoint) (s : State) : List (Format × List Byte) :=
  [(.cmdFrame, (s.callFrame p).bytes)]

/-- At a trailing exchange, the tests that name its byte (R95, T-TOKENS): TRAIL[2] and TRAIL[3] after CMD8, TRAIL[0] after
CMD58. -/
def State.trailFormats (s : State) : List Format :=
  match s.ret, s.idx with
  | .iCmd8, 2 => [.r7Byte2]
  | .iCmd8, 3 => [.r7Byte3]
  | .iCmd58, 0 => [.ocrByte0]
  | _, _ => []

/-- At an exchange that sends FILLER and tests its answer: the byte due, in each format of the point, then the byte sent. -/
def State.receiveWords (formats : List Format) (s : State) : List (Format × List Byte) :=
  formats.map (fun f => (f, [s.draw])) ++ [(.tx, [Config.filler])]

/-- The words due at the current program point, each in the format it is read in there (R33, R106, R109). At F_SELECT it is
the frame held in FRAME: where FRAME is a row of the table, that row's meaning also fixes TLEN and RET, whatever they held
(DESIGN CHOICE, U16; assumption 26). -/
def State.dueWords (s : State) : List (Format × List Byte) :=
  match s.phase with
  | .idle =>
    match s.hostQueue with
    | .write .reqOp value :: _ =>
      [(.hostReq, requestBytes (value.extractLsb' 0 2) s.reqSector s.reqCount)]
    | _ => []
  | .fSelect => [(.cmdFrame, s.frame.bytes)]
  | .iCmd0 => s.callWord .iCmd0
  | .iCmd8 => s.callWord .iCmd8
  | .iLoop55 => s.callWord .iLoop55
  | .iLoop41 => s.callWord .iLoop41
  | .iCmd58 => s.callWord .iCmd58
  | .rHead => if s.remain = 0 then [] else s.callWord .rCmd17
  | .wHead => if s.remain = 0 then [] else s.callWord .wCmd24
  | .rCmd17 => s.callWord .rCmd17
  | .wCmd24 => s.callWord .wCmd24
  | .fPoll => s.receiveWords [.r1Test, .r1Poll]
  | .fTrail => s.receiveWords s.trailFormats
  | .rToken => s.receiveWords [.readToken]
  | .wResp => s.receiveWords [.dataResponse]
  | .wBusy => s.receiveWords [.busy]
  | .iPowerup | .iFinFiller | .rData | .rCrc | .rEndFiller | .rErrFiller | .wGap | .wEndFiller | .wErrFiller =>
    s.receiveWords []
  | .wToken => [(.tx, [Config.startToken])]
  | .wCrc => [(.txCrc, [Config.dummyCrc])]
  | .fTx | .wData | .iEntry | .iFinDeselect | .iFinFast | .rEndDeselect | .rErrDeselect | .wReselect | .wEndDeselect
  | .wErrDeselect => []

/-- The instruction due at the current program point: the first of the words due that is a row of the table. -/
def State.fetch (s : State) : Option Instr := firstDecoded s.dueWords

/-! ## The steps that are no row of the table -/

/-- I_ENTRY (R181): `initialized <- 0`, the SDSC preset, SetClock(SLOW), Deselect(), then the power-up fillers. -/
def State.initEntry (s : State) : State :=
  { (s.setClock .slow).deselect with initialized := false, capacityClass := .sdsc, idx := 0, phase := .iPowerup }

/-- I_FIN_FAST (R191, R192): SetClock(FAST), `initialized <- 1`, return OK. -/
def State.initReady (s : State) : State :=
  { s.setClock .fast with initialized := true }.finish .ok

/-- F_SELECT with a frame that is no row of the table (R108, R150): SendCommand is defined for every index 0 to 63 and every
operand held in FRAME and TLEN (U16; assumption 26). -/
def State.enterFramer (s : State) : State := { s.select with idx := 0, phase := .fTx }

/-- W_DATA(j) (R61, R243): the buffer byte is read and sent. -/
def State.sendDataByte (s : State) : Host.Outcome State Fault Refusal :=
  match s.bufRead (s.offset + s.idx) with
  | some v => s.exchangeAndReceive v
  | none => .fault .bufferOutOfRange

/-- The step at a program point where no row of the table is due: at IDLE nothing (R310), at R_HEAD and W_HEAD the end of a
transfer of no sectors (R223). At the points of the last line a row is always due. -/
def State.control (s : State) : Host.Outcome State Fault Refusal :=
  match s.phase with
  | .idle => .next s
  | .fSelect => .next s.enterFramer
  | .fTx => s.exchangeAndReceive (s.frame.byte s.idx)
  | .iEntry => .next s.initEntry
  | .iFinDeselect => .next { s.deselect with phase := .iFinFiller }
  | .iFinFast => .next s.initReady
  | .rHead | .wHead => .next (s.finish .ok)
  | .rEndDeselect => .next { s.deselect with phase := .rEndFiller }
  | .rErrDeselect => .next { s.deselect with phase := .rErrFiller }
  | .wReselect => .next { s.select with phase := .wToken }
  | .wData => s.sendDataByte
  | .wEndDeselect => .next { s.deselect with phase := .wEndFiller }
  | .wErrDeselect => .next { s.deselect with phase := .wErrFiller }
  | .fPoll | .fTrail | .iPowerup | .iCmd0 | .iCmd8 | .iLoop55 | .iLoop41 | .iCmd58 | .iFinFiller | .rCmd17 | .rToken | .rData
  | .rCrc | .rEndFiller | .rErrFiller | .wCmd24 | .wGap | .wToken | .wCrc | .wResp | .wBusy | .wEndFiller | .wErrFiller =>
    .next s

/-! ## Placing a word where it is due next -/

/-- The framer is entered with these operands in FRAME. -/
def State.placeFrame (index : BitVec 6) (argument : Word32) (crc : Byte) (s : State) : State :=
  { s with frame := { index := index, argument := argument, crc := crc }, phase := .fSelect }

/-- The block is idle, the operand registers are written, the write of REQ_OP is due, the buffer bound is large enough. -/
def State.placeRequest (op : BitVec 2) (sector count : Word32) (s : State) : State :=
  { s with
    reqSector := sector
    reqCount := count
    bufLen := max s.bufLen (count.toNat * Config.blockLen)
    hostQueue := .write .reqOp (op.zeroExtend 32) :: s.hostQueue
    phase := .idle }

/-- The card's next answer is a byte, at an exchange of a program point. -/
def State.placeAnswer (phase : Phase) (byte : Byte) (s : State) : State :=
  { s with card := { s.card with script := byte :: s.card.script }, phase := phase }

/-- The state with an instruction due at once: at the framer's entry, at the host port, or at an exchange whose point names
its byte so. -/
def State.place (i : Instr) (s : State) : State :=
  match i with
  | .cmd0 crc => s.placeFrame 0 0x00000000 crc
  | .cmd8 crc => s.placeFrame 8 Config.argCmd8 crc
  | .cmd55 crc => s.placeFrame 55 0x00000000 crc
  | .acmd41V2 crc => s.placeFrame 41 Config.argAcmd41V2 crc
  | .acmd41Legacy crc => s.placeFrame 41 Config.argAcmd41Legacy crc
  | .cmd58 crc => s.placeFrame 58 0x00000000 crc
  | .cmd17 argument crc => s.placeFrame 17 argument crc
  | .cmd24 argument crc => s.placeFrame 24 argument crc
  | .init sector count => s.placeRequest 1 sector count
  | .readBlocks sector count => s.placeRequest 2 sector count
  | .writeBlocks sector count => s.placeRequest 3 sector count
  | .filler => { s with phase := .wGap }
  | .startTokenTx => { s with phase := .wToken }
  | .dummyCrc => { s with idx := 0, phase := .wCrc }
  | .r1Valid byte => s.placeAnswer .fPoll byte
  | .r1Idle => s.placeAnswer .fPoll Config.r1Idle
  | .r1Ready => s.placeAnswer .fPoll Config.r1Ready
  | .startTokenRx => s.placeAnswer .rToken Config.startToken
  | .dataAccepted byte => s.placeAnswer .wResp byte
  | .busyByte => s.placeAnswer .wBusy Config.busyByte
  | .echoVolt => { s.placeAnswer .fTrail Config.echoVolt with ret := .iCmd8, tlen := 4, idx := 2 }
  | .echoPattern => { s.placeAnswer .fTrail Config.echoPattern with ret := .iCmd8, tlen := 4, idx := 3 }
  | .ocrCcs byte => { s.placeAnswer .fTrail byte with ret := .iCmd58, tlen := 4, idx := 0 }

end Sys2Proof.Machine
end

