-- ==== Sys2Proof/Machine/Step.lean ====
section
/-! DEFINITION. One step of the block (R34): the reset input, or the instruction due at PHASE, or the step of a program point
where no row of the table is due. -/

namespace Sys2Proof.Machine

/-- One step: one bus action, or the start or the end of a host operation (R34), after the host's access of the step. -/
def step (s : State) : Host.Outcome State Fault Refusal :=
  if s.resetIn then .next s.applyReset
  else
    match s.fetch with
    | some i => exec i s.arrive
    | none => s.arrive.control

/-- The state with an opcode table's word due at once; unchanged where the word is no row. -/
def State.withFetchWord (s : State) (nbits w : Nat) : State :=
  match decodeTableWord nbits w with
  | some i => { s.place i with resetIn := false }
  | none => s

end Sys2Proof.Machine
end

