-- ==== Sys2Proof/Safety.lean ====
section
/-! DEFINITION. What claims are stated in: runs, the observation (R13), and the invariant of the runs of the block. -/

namespace Sys2Proof.Machine

/-- `n` steps, stopping at the first fault or refusal. -/
def run : Nat → State → Host.Outcome State Fault Refusal
  | 0, s => .next s
  | n + 1, s =>
    match step s with
    | .next t => run n t
    | .fault f => .fault f
    | .refused r => .refused r

/-- What is observable from outside (R13). -/
structure Observation where
  trace : List Xfer
  sel : Bool
  clk : ClockSpeed
  capacityClass : CapacityClass
  initialized : Bool
  results : List Result
  buf : Memory
  deriving DecidableEq, Repr

/-- The observation of a state (R13). -/
def State.observe (s : State) : Observation :=
  { trace := s.trace, sel := s.sel, clk := s.clk, capacityClass := s.capacityClass, initialized := s.initialized,
    results := s.results, buf := s.buf }

/-- The trace records of a sequence of exchanges that send `tx` and receive the bytes of a list, in order. -/
def xfers (tx : Byte) (sel : Bool) (clk : ClockSpeed) (received : List Byte) : List Xfer :=
  received.map fun rx => { tx := tx, rx := rx, sel := sel, clk := clk }

/-- The environment after a number of draws, the script's rest being left. -/
def CardSource.after (n : Nat) (rest : List Byte) (c : CardSource) : CardSource :=
  { script := rest, forever := c.forever, drawn := c.drawn + n }

/-- What the host does meanwhile: the state after the accesses of the next `n` steps, if the block is busy in each (R38;
`State.arrive`). Only the pending accesses, REQ_SECTOR and REQ_COUNT can differ. -/
def State.arrivals : Nat → State → State
  | 0, s => s
  | n + 1, s => State.arrivals n s.arrive

/-! ## The invariant -/

/-- INIT is running and has not yet decided the capacity class (R181, R195). -/
def State.initOk (s : State) : Bool :=
  s.reqOp == 1 && s.clk == .slow && !s.initialized && s.capacityClass == .sdsc

/-- A transfer is under way with a sector to do (R221, R60): whole sectors are done, and the bound buffer holds what is done
and what is left. (That SECTOR follows OFFSET is `Obligations.SectorFollowsOffset`: the host may write the operand registers
again meanwhile, R38.) -/
def State.sectorOk (op : BitVec 2) (s : State) : Bool :=
  s.reqOp == op && s.remain != 0 && s.offset % Config.blockLen == 0 &&
    decide (s.offset + s.remain.toNat * Config.blockLen ≤ s.bufLen)

/-- A transfer is requested, its operands are loaded and its buffer is large enough (R38, R60, U7). -/
def State.requestOk (op : BitVec 2) (s : State) : Bool :=
  s.reqOp == op && s.offset == 0 && decide (s.remain.toNat * Config.blockLen ≤ s.bufLen)

/-- The caller of the SendCommand in progress is where that call stands. -/
def State.callerOk (s : State) : Bool :=
  match s.ret with
  | .iCmd0 | .iCmd8 => s.initOk
  | .iLoop55 | .iLoop41 => s.initOk && decide (s.retry < Config.nAcmd41)
  | .iCmd58 => s.initOk && s.v2
  | .rCmd17 => s.sectorOk 2
  | .wCmd24 => s.sectorOk 3

/-- The trailing length of each call (R104). -/
def RetPoint.tlen : RetPoint → Fin 5
  | .iCmd8 | .iCmd58 => 4
  | .iCmd0 | .iLoop55 | .iLoop41 | .rCmd17 | .wCmd24 => 0

/-- A command exchange is in progress: the card selected, the frame the caller's (R105), TLEN as R104 says. -/
def State.framerOk (s : State) : Bool :=
  s.sel && s.frame == s.callFrame s.ret && s.tlen == s.ret.tlen && s.callerOk

/-- The busy-wait's counter is below its bound, where there is one (R248). -/
def State.busyCountOk (s : State) : Bool :=
  match s.par.writeBusyBound with
  | none => true
  | some bound => decide (s.poll < bound)

/-- What holds at each program point of a run. F_SELECT is no resting point of a run (assumption 2). -/
def State.pointOk (s : State) : Bool :=
  match s.phase with
  | .idle => true
  | .fSelect => false
  | .fTx => decide (s.idx < Config.frameLen) && s.framerOk
  | .fPoll => decide (s.poll < Config.nCmdPoll) && s.framerOk
  | .fTrail => decide (s.idx < s.tlen.val) && s.framerOk
  | .iEntry => s.reqOp == 1
  | .iPowerup => decide (s.idx < Config.nPowerup) && !s.sel && s.initOk
  | .iCmd0 => !s.sel && s.initOk
  | .iCmd8 => s.sel && s.initOk
  | .iLoop55 | .iLoop41 => s.sel && s.initOk && decide (s.retry < Config.nAcmd41)
  | .iCmd58 => s.sel && s.initOk && s.v2
  | .iFinDeselect => s.sel && s.reqOp == 1 && s.clk == .slow && !s.initialized
  | .iFinFiller | .iFinFast => !s.sel && s.reqOp == 1 && s.clk == .slow && !s.initialized
  | .rHead => s.requestOk 2
  | .rCmd17 => s.sectorOk 2
  | .rToken => decide (s.poll < Config.nTokenPoll) && s.sel && s.sectorOk 2
  | .rData => decide (s.idx < Config.blockLen) && s.sel && s.sectorOk 2
  | .rCrc => decide (s.idx < Config.nDataCrc) && s.sel && s.sectorOk 2
  | .rEndDeselect => s.sel && s.sectorOk 2
  | .rEndFiller => !s.sel && s.sectorOk 2
  | .rErrDeselect => s.sel && s.reqOp == 2 && (s.err == .commandRejected || s.err == .dataTokenTimeout)
  | .rErrFiller => !s.sel && s.reqOp == 2 && (s.err == .commandRejected || s.err == .dataTokenTimeout)
  | .wHead => s.requestOk 3
  | .wCmd24 => s.sectorOk 3
  | .wGap | .wReselect | .wToken | .wResp => s.sel && s.sectorOk 3
  | .wData => decide (s.idx < Config.blockLen) && s.sel && s.sectorOk 3
  | .wCrc => decide (s.idx < Config.nDataCrc) && s.sel && s.sectorOk 3
  | .wBusy => s.sel && s.sectorOk 3 && s.busyCountOk
  | .wEndDeselect => s.sel && s.sectorOk 3
  | .wEndFiller => !s.sel && s.sectorOk 3
  | .wErrDeselect =>
    s.sel && s.reqOp == 3 &&
      (s.err == .commandRejected || s.err == .writeResponseRejected ||
        (s.err == .writeBusyTimeout && s.par.writeBusyBound.isSome))
  | .wErrFiller =>
    !s.sel && s.reqOp == 3 &&
      (s.err == .commandRejected || s.err == .writeResponseRejected ||
        (s.err == .writeBusyTimeout && s.par.writeBusyBound.isSome))

/-- The invariant of the runs of the block. -/
structure State.Inv (s : State) : Prop where
  /-- The buffer is in canonical form. -/
  bufWF : s.buf.WF
  /-- A busy bound is at least 1 (R248). -/
  parWF : s.par.wf = true
  /-- What holds at the program point. -/
  point : s.pointOk = true
  /-- Between exchanges the serializer is empty, MOSI is held high and SCLK low (R32, R136). -/
  serIdle : s.ser.txsr = 0xFF ∧ s.ser.bitcnt = 0 ∧ s.ser.sclk = false
  /-- With the card deselected the block has sent nothing but fillers (R100, R132). -/
  deselectedFillers : ∀ x ∈ s.trace, x.sel = false → x.tx = Config.filler
  /-- No result is WriteBusyTimeout in the reference behaviour (R110, R276). -/
  noBusyTimeout : s.par.writeBusyBound = none → s.result ≠ .writeBusyTimeout

end Sys2Proof.Machine
end

