-- ==== Sys2Proof/WellFormed.lean ====
section
/-! DEFINITION. Which instructions are well formed: a token that carries its whole byte carries one its row's match and mask
admit (T-TOKENS, R106). Every other operand may have any value: the table does not match the `crc` byte (R93), and every
32-bit sector, count and argument is legal (R38, R73). -/

namespace Sys2Proof

/-- The operand checks of T-TOKENS. -/
def Instr.wf : Instr → Bool
  | .r1Valid b => b &&& 0x80 == 0x00
  | .dataAccepted b => b &&& Config.respMask == Config.respAccepted
  | .ocrCcs b => b &&& Config.ocrCcsMask == Config.ocrCcsMask
  | .cmd0 _ | .cmd8 _ | .cmd55 _ | .acmd41V2 _ | .acmd41Legacy _ | .cmd58 _ => true
  | .cmd17 _ _ | .cmd24 _ _ => true
  | .init _ _ | .readBlocks _ _ | .writeBlocks _ _ => true
  | .filler | .startTokenTx | .dummyCrc => true
  | .r1Idle | .r1Ready | .startTokenRx | .busyByte | .echoVolt | .echoPattern => true

end Sys2Proof
end

