-- ==== Sys2Proof/Certificates/Slice0/Obligations.lean ====
section
/-! DEFINITION. The statements for the provers. Each docstring names the rule or the part of the spec it comes from. -/

open Sys2Proof Sys2Proof.Machine

/-! ## Reset and the reset input -/

/-- 70_reset_and_hazards.md section 1: what reset leaves (R310, the spec's decision D19), and that the block then does
nothing until the host requests an operation. -/
def Obligations.ResetLeavesTheBlockIdle : Prop :=
  State.reset.initialized = false ∧ State.reset.capacityClass = .sdsc ∧ State.reset.sel = false ∧
    State.reset.pins.csN = true ∧ State.reset.clk = .slow ∧ State.reset.phase = .idle ∧ State.reset.reqOp = 0 ∧
    State.reset.stat = 0x00 ∧ State.reset.trace = [] ∧ step State.reset = .next State.reset

/-- 70_reset_and_hazards.md section 1: the reset input, at any point of an operation, gives the reset values and makes
no bus action (R311, the spec's decision D19). That the buffer, the host's pending accesses, the card's answers and
the parameters stay is the model's choice (assumption 10). -/
def Obligations.ResetInputAbandonsTheOperation : Prop :=
  ∀ s : State, s.resetIn = true →
    ∃ t : State, step s = .next t ∧ t.initialized = false ∧ t.capacityClass = .sdsc ∧ t.sel = false ∧ t.clk = .slow ∧
      t.phase = .idle ∧ t.reqOp = 0 ∧ t.stat = 0x00 ∧ t.trace = [] ∧ t.resetIn = false ∧ t.card = s.card ∧
      t.hostQueue = s.hostQueue ∧ t.par = s.par ∧ t.bufLen = s.bufLen ∧ ∀ a, t.buf.read a = s.buf.read a

/-! ## Encodings -/

/-- 30_encoding.md sections 1 to 3 and 95_test_vectors.md: nine words written out from the encodings decode to their
instructions, and three to none. The two request words are the nine bytes of assumption 23 (a DESIGN CHOICE: R101, the
spec's decision D17, gives a 66-bit word only). -/
def Obligations.WordsOfTheSpecDecode : Prop :=
  decode .cmdFrame [0x40, 0x00, 0x00, 0x00, 0x00, 0x95] = .ok (.cmd0 0x95) ∧
    decode .cmdFrame [0x48, 0x00, 0x00, 0x01, 0xAA, 0x87] = .ok (.cmd8 0x87) ∧
    decode .cmdFrame [0x69, 0x40, 0x00, 0x00, 0x00, 0xFF] = .ok (.acmd41V2 0xFF) ∧
    decode .cmdFrame [0x51, 0x12, 0x34, 0x56, 0x78, 0xFF] = .ok (.cmd17 0x12345678 0xFF) ∧
    decode .cmdFrame [0x58, 0x24, 0x68, 0xAC, 0x00, 0xFF] = .ok (.cmd24 0x2468AC00 0xFF) ∧
    decode .cmdFrame [0x7F, 0xFF, 0xFF, 0xFF, 0xFF, 0x00] = .error .indexNotEmitted ∧
    decode .hostReq [0x02, 0x00, 0x00, 0x00, 0x0A, 0x00, 0x00, 0x00, 0x03] = .ok (.readBlocks 10 3) ∧
    decode .hostReq [0x00, 0x00, 0x00, 0x00, 0x0A, 0x00, 0x00, 0x00, 0x03] = .error .noOperation ∧
    decode .r1Poll [0x7F] = .ok (.r1Valid 0x7F) ∧ decode .dataResponse [0xE5] = .ok (.dataAccepted 0xE5) ∧
    decode .dataResponse [0x0B] = .error .notAToken ∧ decode .ocrByte0 [0xC0] = .ok (.ocrCcs 0xC0)

/-- 30_encoding.md: no bit of an encoding is dropped. -/
def Obligations.EncodedInstructionsDecodeBack : Prop :=
  ∀ i : Instr, i.wf = true → decode i.format (encode i) = .ok i

/-- 30_encoding.md: in its format a word has one meaning, a well-formed instruction whose encoding it is. -/
def Obligations.DecodedWordsEncodeBack : Prop :=
  ∀ (f : Format) (bytes : List Byte) (i : Instr), decode f bytes = .ok i →
    i.wf = true ∧ i.format = f ∧ encode i = bytes

/-- 30_encoding.md section 2: frame byte 0 of every index, and the seven values the block's commands give it (the spec
derives them from the frame layout, R102). -/
def Obligations.FrameByteZeroIsPrefixAndIndex : Prop :=
  (∀ f : Frame, f.byte 0 = 0x40 ||| f.index.zeroExtend 8 ∧ (f.byte 0).toNat = 0x40 + f.index.toNat) ∧
    ∀ s : State, (s.callFrame .iCmd0).byte 0 = 0x40 ∧ (s.callFrame .iCmd8).byte 0 = 0x48 ∧
      (s.callFrame .rCmd17).byte 0 = 0x51 ∧ (s.callFrame .wCmd24).byte 0 = 0x58 ∧ (s.callFrame .iLoop41).byte 0 = 0x69 ∧
      (s.callFrame .iLoop55).byte 0 = 0x77 ∧ (s.callFrame .iCmd58).byte 0 = 0x7A

/-- 20_memory.md section 2 and 30_encoding.md section 2: the step at F_TX(k) sends byte k of FRAME, and the six bytes of FRAME
are the encoding of the frame instruction run, the argument most significant byte first and the crc verbatim. -/
def Obligations.FramerSendsTheEncodedFrame : Prop :=
  (∀ (i : Instr) (s : State), i.format = .cmdFrame → ∃ t : State, exec i s = .next t ∧ t.frame.bytes = encode i) ∧
    (∀ (s : State) (b : Byte), s.resetIn = false → s.phase = .fTx → s.frame.bytes[s.idx]? = some b →
      ∃ t : State, step s = .next t ∧ t.frame = s.frame ∧ t.idx = s.idx + 1 ∧
        t.phase = (if s.idx = 5 then .fPoll else .fTx) ∧
        t.trace = s.trace ++ [{ tx := b, rx := s.draw, sel := s.sel, clk := s.clk }]) ∧
    ∀ f : Frame, f.argument.toNat =
        (f.byte 1).toNat * 2 ^ 24 + (f.byte 2).toNat * 2 ^ 16 + (f.byte 3).toNat * 2 ^ 8 + (f.byte 4).toNat ∧
      f.byte 5 = f.crc

/-- 30_encoding.md section 1: a word of the opcode table placed in the machine is the very next instruction fetched,
and the step that runs it answers a next state. The placing and the reading of a bare byte are the model's choices
(assumptions 4 and 5). -/
def Obligations.PlacedTableWordsRun : Prop :=
  ∀ (nbits w : Nat) (i : Instr) (s : State), decodeTableWord nbits w = some i →
    (s.withFetchWord nbits w).fetch = some i ∧
      ∃ t : State, step (s.withFetchWord nbits w) = .next t ∧ exec i (s.withFetchWord nbits w).arrive = .next t

/-! ## The step -/

/-- 10_state.md sections 4 and 5: a step runs the instruction due at the program point, after the host's access of the step.
What that access does: the operand registers hold what is written, busy or idle (R38); a write of STAT, and of zero to
REQ_OP, does nothing; a request and the binding of a buffer are taken only when idle. That accesses are a list taken one a
step is the model's choice (assumption 5). -/
def Obligations.StepRunsTheInstructionDue : Prop :=
  (∀ (s : State) (i : Instr), s.resetIn = false → s.fetch = some i → step s = exec i s.arrive) ∧
    ∀ s : State, (s.hostQueue = [] → s.arrive = s) ∧
      ∀ (v : Word32) (bytes : List Byte) (q : List HostAccess),
        (s.hostQueue = .write .reqSector v :: q → s.arrive = { s with hostQueue := q, reqSector := v }) ∧
        (s.hostQueue = .write .reqCount v :: q → s.arrive = { s with hostQueue := q, reqCount := v }) ∧
        (s.hostQueue = .write .stat v :: q → s.arrive = { s with hostQueue := q }) ∧
        (s.hostQueue = .pass :: q → s.arrive = { s with hostQueue := q }) ∧
        (s.hostQueue = .write .reqOp v :: q →
          s.arrive = if s.phase = .idle ∨ v.extractLsb' 0 2 = 0 then { s with hostQueue := q } else s) ∧
        (s.hostQueue = .bindBuffer bytes :: q →
          s.arrive = if s.phase = .idle then
              { s with hostQueue := q, buf := Memory.ofBytes 0 bytes, bufLen := bytes.length } else s)

/-- 30_encoding.md sections 1 and 4: an exchange may have two names, the byte sent and the byte received (the model's
choice, assumption 3); whichever it is read by, the step is that instruction. -/
def Obligations.EveryReadingOfAWordDueIsTheStep : Prop :=
  ∀ (s : State) (f : Format) (bytes : List Byte) (i : Instr), s.resetIn = false → (f, bytes) ∈ s.dueWords →
    decode f bytes = .ok i → step s = exec i s.arrive

/-- 10_state.md section 4, 40_bus_driver.md sections 1 and 3: a step makes one exchange, recorded with the select line
and the clock speed in force and receiving the draw, or none; a step that exchanges moves neither line. One bus action
a step is the model's choice (assumption 2). -/
def Obligations.AStepMakesAtMostOneExchange : Prop :=
  ∀ s t : State, s.resetIn = false → step s = .next t →
    (t.trace = s.trace ∧ t.card = s.card) ∨
      ∃ tx, t.trace = s.trace ++ [{ tx := tx, rx := s.draw, sel := s.sel, clk := s.clk }] ∧
        t.card = s.card.advance ∧ t.sel = s.sel ∧ t.clk = s.clk

/-! ## Invariants and whole-machine rules -/

/-- 10_state.md sections 2 to 6, 43_block_transfer.md section 1: the invariant of Safety.lean, kept by every step. Its
clause on the idle serializer rests on assumption 15, its clause on R_HEAD and W_HEAD on assumption 2. -/
def Obligations.EveryStepKeepsTheInvariant : Prop :=
  ∀ s t : State, s.Inv → step s = .next t → t.Inv

/-- 70_reset_and_hazards.md section 1: the invariant holds at reset; the idle serializer is the model's choice there
(assumptions 9 and 15). -/
def Obligations.ResetMeetsTheInvariant : Prop := State.reset.Inv

/-- 60_exceptions.md section 2: from a state of the invariant no step faults, and a step is refused only for a request
whose buffer is too short (the model's choice for U7, assumption 6). -/
def Obligations.NoRunFaults : Prop :=
  ∀ s : State, s.Inv →
    (∀ f, step s ≠ .fault f) ∧ ∀ r, step s = .refused r → s.phase = .idle ∧ r = .bufferTooShort

/-- 10_state.md sections 2 and 6, 40_bus_driver.md section 1: only INIT writes CardState, and only its first and last
points write the clock (R41, which the spec derives). The capacity class is written at INIT's entry and at the last
exchange of its CMD41 or CMD58. -/
def Obligations.OnlyInitWritesCardStateAndClock : Prop :=
  ∀ s t : State, s.resetIn = false → step s = .next t →
    (t.clk ≠ s.clk ∨ t.initialized ≠ s.initialized → s.phase = .iEntry ∨ s.phase = .iFinFast) ∧
      (t.capacityClass ≠ s.capacityClass →
        s.phase = .iEntry ∨
          ((s.ret = .iLoop41 ∨ s.ret = .iCmd58) ∧
            (s.phase = .fPoll ∧ s.tlen = 0 ∧ (s.draw.msb = false ∨ s.poll + 1 = 500) ∨
              s.phase = .fTrail ∧ s.tlen.val ≤ s.idx + 1)))

/-- R321: inside the block every deselect is followed by one filler exchange, before anything else. -/
def Obligations.EveryDeselectIsFollowedByAFiller : Prop :=
  ∀ s t : State, s.resetIn = false → step s = .next t → s.sel = true → t.sel = false →
    ∃ u : State, step t = .next u ∧ u.sel = false ∧
      u.trace = t.trace ++ [{ tx := Config.filler, rx := t.draw, sel := false, clk := t.clk }]

/-- 10_state.md sections 4 and 5: while an operation is in progress the host's accesses do to the pending accesses and the
operand registers what `State.arrive` says (`StepRunsTheInstructionDue` spells it out) and nothing else: with any other
pending accesses and operand registers the block does the same. That a request waits until the block is idle is the
model's choice (assumption 5). -/
def Obligations.ABusyBlockIgnoresTheHost : Prop :=
  ∀ (s : State) (q : List HostAccess) (sector count : Word32), s.resetIn = false → s.phase ≠ .idle →
    (∀ t, step s = .next t →
        t.hostQueue = s.arrive.hostQueue ∧ t.reqSector = s.arrive.reqSector ∧ t.reqCount = s.arrive.reqCount ∧
          t.reqOp = s.reqOp ∧
          ∃ u : State, step { s with hostQueue := q, reqSector := sector, reqCount := count } = .next u ∧
            u = { t with hostQueue := u.hostQueue, reqSector := u.reqSector, reqCount := u.reqCount }) ∧
      (∀ f, step s = .fault f →
        step { s with hostQueue := q, reqSector := sector, reqCount := count } = .fault f) ∧
      ∀ r, step s ≠ .refused r

/-- 30_encoding.md section 4: the bytes received while a frame, a write's data packet, a power-up filler or a closing
filler is sent, and the two CRC bytes of a read, steer nothing (R109, the spec's decision D29): with other answers the
step differs only in the record of the exchange, the serializer and what the environment has left. -/
def Obligations.DiscardedBytesSteerNothing : Prop :=
  ∀ (s : State) (c : CardSource), s.resetIn = false →
    s.phase ∈ [Phase.fTx, .iPowerup, .iFinFiller, .rCrc, .rEndFiller, .rErrFiller, .wGap, .wToken, .wData, .wCrc, .wEndFiller,
      .wErrFiller] →
    ∀ t, step s = .next t →
      ∃ u : State, step { s with card := c } = .next u ∧ { u with card := t.card, trace := t.trace, ser := t.ser } = t

/-- 20_memory.md section 1: while an operation runs only R_DATA(j) changes the buffer; it stores the received byte at
OFFSET + IDX and leaves every other byte. -/
def Obligations.OnlyReadDataStoresToTheBuffer : Prop :=
  ∀ s t : State, s.resetIn = false → s.buf.WF → s.phase ≠ .idle → step s = .next t →
    t.bufLen = s.bufLen ∧ t.buf.WF ∧
      (s.phase = .rData → t.buf.read (s.offset + s.idx) = s.draw ∧
        ∀ a, a ≠ s.offset + s.idx → t.buf.read a = s.buf.read a) ∧
      (s.phase ≠ .rData → ∀ a, t.buf.read a = s.buf.read a)

/-- 60_exceptions.md sections 1 and 2: every operation either ends or, from some step on, waits at W_BUSY for ever. It rests
on the spec's decision D27, that every exchange completes (assumption 16). -/
def Obligations.EveryOperationEndsOrWaitsOnABusyCard : Prop :=
  ∀ s : State, s.Inv → s.resetIn = false → s.phase ≠ .idle →
    (∃ (n : Nat) (t : State), run n s = .next t ∧ t.phase = .idle) ∨
      ∃ n : Nat, ∀ m : Nat, n ≤ m → ∃ t : State, run m s = .next t ∧ t.phase = .wBusy

/-- 40_bus_driver.md section 3, 43_block_transfer.md section 3: INIT, READ_BLOCKS and, under a busy bound,
WRITE_BLOCKS always end, whatever the card answers. It rests on the spec's decisions D27, that every exchange completes
(assumption 16), D13 (the loop bounds) and D12 (the bounded variant, assumption 17). -/
def Obligations.OnlyAnUnboundedWriteCanHang : Prop :=
  ∀ s : State, s.Inv → s.resetIn = false → s.phase ≠ .idle →
    s.reqOp ≠ 3 ∨ s.par.writeBusyBound ≠ none → ∃ (n : Nat) (t : State), run n s = .next t ∧ t.phase = .idle

/-! ## The command framer -/

/-- R151, 41_command_framer.md section 2: each command frame enters SendCommand with its index, argument, crc and
trailing length, the card being selected before the first frame byte whether or not it was, and changes nothing else.
That entry and select are one step is the model's choice (assumption 2). -/
def Obligations.CommandFramesEnterSendCommand : Prop :=
  ∀ (s : State) (argument : Word32) (crc : Byte),
    exec (.cmd0 crc) s = .next { s with
        frame := ⟨0, 0x00000000, crc⟩, tlen := 0, ret := .iCmd0, sel := true, idx := 0, phase := .fTx } ∧
    exec (.cmd8 crc) s = .next { s with
        frame := ⟨8, 0x000001AA, crc⟩, tlen := 4, ret := .iCmd8, sel := true, idx := 0, phase := .fTx } ∧
    exec (.cmd55 crc) s = .next { s with
        frame := ⟨55, 0x00000000, crc⟩, tlen := 0, ret := .iLoop55, sel := true, idx := 0, phase := .fTx } ∧
    exec (.acmd41V2 crc) s = .next { s with
        frame := ⟨41, 0x40000000, crc⟩, tlen := 0, ret := .iLoop41, sel := true, idx := 0, phase := .fTx } ∧
    exec (.acmd41Legacy crc) s = .next { s with
        frame := ⟨41, 0x00000000, crc⟩, tlen := 0, ret := .iLoop41, sel := true, idx := 0, phase := .fTx } ∧
    exec (.cmd58 crc) s = .next { s with
        frame := ⟨58, 0x00000000, crc⟩, tlen := 4, ret := .iCmd58, sel := true, idx := 0, phase := .fTx } ∧
    exec (.cmd17 argument crc) s = .next { s with
        frame := ⟨17, argument, crc⟩, tlen := 0, ret := .rCmd17, sel := true, idx := 0, phase := .fTx } ∧
    exec (.cmd24 argument crc) s = .next { s with
        frame := ⟨24, argument, crc⟩, tlen := 0, ret := .wCmd24, sel := true, idx := 0, phase := .fTx }

/-- 41_command_framer.md section 1: a whole command exchange after its entry. Six frame bytes go out, whatever comes in (the
spec's decision D29); then fillers until the first byte with bit 7 clear, or the 500th (the bound read as the spec's decision
D13); the last byte read is R1; then TLEN fillers are stored in TRAIL; then the caller goes on (`resume`) with SEL = 1 and
everything else as it was, but for the host's writes of its operand registers meanwhile (`State.arrivals`). -/
def Obligations.SendCommandExchange : Prop :=
  ∀ (s0 : State) (index : BitVec 6) (argument : Word32) (crc : Byte) (tlen : Fin 5) (ret : RetPoint)
    (six skipped trailing rest : List Byte) (answer : Byte),
    s0.resetIn = false →
    s0.card.script = six ++ skipped ++ answer :: (trailing ++ rest) →
    six.length = 6 → (∀ b ∈ skipped, b.msb = true) →
    (answer.msb = false ∧ skipped.length < 500 ∨ skipped.length = 499) →
    trailing.length = tlen.val →
    ∃ u : State, run (6 + skipped.length + 1 + tlen.val) (s0.sendCommand index argument crc tlen ret) = .next u.resume ∧
      u.sel = true ∧ u.r1 = answer ∧ (∀ j b, trailing[j]? = some b → u.trail.get j = b) ∧
      (∀ j, tlen.val ≤ j → j < 4 → u.trail.get j = s0.trail.get j) ∧
      u.trace = s0.trace ++
        (List.zipWith (fun tx rx => { tx := tx, rx := rx, sel := true, clk := s0.clk })
          [0x40 ||| index.zeroExtend 8, argument.extractLsb' 24 8, argument.extractLsb' 16 8, argument.extractLsb' 8 8,
            argument.extractLsb' 0 8, crc] six ++
          xfers Config.filler true s0.clk (skipped ++ answer :: trailing)) ∧
      u.card = s0.card.after (6 + skipped.length + 1 + tlen.val) rest ∧
      u = { (s0.sendCommand index argument crc tlen ret).arrivals (6 + skipped.length + 1 + tlen.val) with
          r1 := answer, trail := u.trail, poll := skipped.length + 1, idx := tlen.val, trace := u.trace, card := u.card
          ser := u.ser, phase := u.phase }

/-- 41_command_framer.md section 1: while a byte with bit 7 set comes in and fewer than 500 have (the bound read as
the spec's decision D13), the poll goes on. -/
def Obligations.UnansweredPollGoesOn : Prop :=
  ∀ s : State, s.resetIn = false → s.phase = .fPoll → s.draw.msb = true → s.poll + 1 ≠ 500 →
    ∃ t : State, step s = .next t ∧ t.phase = .fPoll ∧ t.r1 = s.draw ∧ t.poll = s.poll + 1 ∧
      t = { s.arrive with r1 := t.r1, poll := t.poll, trace := t.trace, card := t.card, ser := t.ser }

/-! ## INIT -/

/-- 42_init_sequencer.md section 2: the entry of INIT, whatever the state it starts in, and the ten power-up fillers
(R181, R182, the spec's decisions D7 and D8). -/
def Obligations.InitStartsWithTenFillersDeselectedAtSlowClock : Prop :=
  ∀ s : State, s.resetIn = false → s.phase = .iEntry →
    ∃ t : State, run 11 s = .next t ∧ t.phase = .iCmd0 ∧ t.initialized = false ∧ t.capacityClass = .sdsc ∧ t.clk = .slow ∧
      t.sel = false ∧
      ∃ received : List Byte, received.length = 10 ∧ t.trace = s.trace ++ xfers Config.filler false .slow received

/-- 42_init_sequencer.md section 2, 60_exceptions.md section 2: any answer to CMD0 but 0x01 ends INIT at once with
Cmd0Failed, SEL left 1 (R183, the spec's decision D9); 0x01 goes on to CMD8. -/
def Obligations.Cmd0AnswerDecidesInit : Prop :=
  ∀ s : State, s.Inv → s.resetIn = false → s.phase = .fPoll → s.ret = .iCmd0 →
    (s.draw.msb = false ∨ s.poll + 1 = 500) →
    ∃ t : State, step s = .next t ∧ t.r1 = s.draw ∧ t.sel = true ∧ t.clk = .slow ∧ t.initialized = false ∧ t.capacityClass = .sdsc ∧
      t.trace = s.trace ++ [{ tx := Config.filler, rx := s.draw, sel := true, clk := .slow }] ∧
      (s.draw = 0x01 → t.phase = .iCmd8 ∧ t.result = s.result) ∧
      (s.draw ≠ 0x01 → t.phase = .idle ∧ t.result = .cmd0Failed ∧ t.results = s.results ++ [.cmd0Failed])

/-- R185: the branch after CMD8, at the exchange of its last trailing byte; no outcome is an error. -/
def Obligations.Cmd8AnswerChoosesTheBranch : Prop :=
  ∀ s : State, s.resetIn = false → s.phase = .fTrail → s.ret = .iCmd8 → s.tlen = 4 → s.idx = 3 →
    ∃ t : State, step s = .next t ∧ t.phase = .iLoop55 ∧ t.retry = 0 ∧ t.result = s.result ∧ t.results = s.results ∧
      (t.v2 = true ↔ s.r1 = 0x01 ∧ s.trail.get 2 = 0x01 ∧ s.draw = 0xAA)

/-- 42_init_sequencer.md sections 2 and 3: the ACMD41 loop. CMD55's answer is ignored; the loop ends with the
iteration whose CMD41 answers 0x00 or with iteration 65535 (R187, R194, the spec's decisions D11 and D13), alike, and
goes to CMD58 (v2) or, SDSC fixed, to the finalize step (legacy). -/
def Obligations.Acmd41LoopRunsToReadyOrExhaustion : Prop :=
  (∀ s : State, s.resetIn = false → s.phase = .fPoll → s.ret = .iLoop55 → s.tlen = 0 →
      (s.draw.msb = false ∨ s.poll + 1 = 500) →
      ∃ t : State, step s = .next t ∧ t.phase = .iLoop41 ∧ t.retry = s.retry ∧ t.result = s.result) ∧
    ∀ s : State, s.resetIn = false → s.phase = .fPoll → s.ret = .iLoop41 → s.tlen = 0 →
      (s.draw.msb = false ∨ s.poll + 1 = 500) →
      ∃ t : State, step s = .next t ∧ t.retry = s.retry + 1 ∧ t.result = s.result ∧ t.results = s.results ∧
        (s.draw ≠ 0x00 ∧ s.retry + 1 ≠ 65535 → t.phase = .iLoop55 ∧ t.capacityClass = s.capacityClass) ∧
        (s.draw = 0x00 ∨ s.retry + 1 = 65535 →
          (s.v2 = true → t.phase = .iCmd58 ∧ t.capacityClass = s.capacityClass) ∧
          (s.v2 = false → t.phase = .iFinDeselect ∧ t.capacityClass = .sdsc))

/-- 42_init_sequencer.md section 1: the argument of CMD41 is the branch's, and the step at I_LOOP_41 sends it. -/
def Obligations.Acmd41ArgumentFollowsTheBranch : Prop :=
  ∀ s : State, s.resetIn = false → s.phase = .iLoop41 →
    (s.v2 = true → step s = exec (.acmd41V2 s.par.crcOther) s.arrive) ∧
      (s.v2 = false → step s = exec (.acmd41Legacy s.par.crcOther) s.arrive)

/-- 42_init_sequencer.md sections 2 and 3 (R188, R189; OK with `initialized` set is R192, the spec's decision D11, and the
last iteration R187, its decision D13; assumption 19): CMD58 is sent after the v2 loop, also after its last iteration; at the
exchange of its last trailing byte the capacity class is decided, or keeps the SDSC preset, and INIT goes on to the finalize
step and returns OK. -/
def Obligations.Cmd58AnswerDecidesTheCapacityClass : Prop :=
  (∀ s : State, s.resetIn = false → s.phase = .iCmd58 → step s = exec (.cmd58 s.par.crcOther) s.arrive) ∧
    (∀ s : State, s.resetIn = false → s.phase = .fPoll → s.ret = .iLoop41 → s.tlen = 0 → s.v2 = true →
      s.retry + 1 = 65535 → (s.draw.msb = false ∨ s.poll + 1 = 500) → ∃ t : State, step s = .next t ∧ t.phase = .iCmd58) ∧
    ∀ s : State, s.Inv → s.resetIn = false → s.phase = .fTrail → s.ret = .iCmd58 → s.idx = 3 →
      ∃ t : State, run 4 s = .next t ∧ t.phase = .idle ∧ t.result = .ok ∧ t.initialized = true ∧
        (s.r1 = 0x00 → (s.trail.get 0).getLsbD 6 = true → t.capacityClass = .sdhc) ∧
        (s.r1 = 0x00 → (s.trail.get 0).getLsbD 6 = false → t.capacityClass = .sdsc) ∧
        (s.r1 ≠ 0x00 → t.capacityClass = .sdsc ∧ s.capacityClass = .sdsc)

/-- R191: the finalize step, whatever RETRY and R1 the ACMD41 loop ended with: deselect, one filler exchange at the
slow clock, then the fast clock. -/
def Obligations.FinalizeDeselectsFillsAndSpeedsUp : Prop :=
  ∀ s : State, s.resetIn = false → s.phase = .iFinDeselect → s.clk = .slow →
    ∃ t : State, run 3 s = .next t ∧ t.sel = false ∧ t.clk = .fast ∧ t.capacityClass = s.capacityClass ∧
      t.trace = s.trace ++ [{ tx := Config.filler, rx := s.draw, sel := false, clk := .slow }]

/-- 42_init_sequencer.md section 3: the final state of INIT per outcome, at the step that ends it (R198, which the
spec derives; decisions D9 and D11). -/
def Obligations.InitEndsFailedOrReady : Prop :=
  ∀ s t : State, s.Inv → s.resetIn = false → s.reqOp = 1 → s.phase ≠ .idle → step s = .next t → t.phase = .idle →
    (t.result = .cmd0Failed ∧ t.initialized = false ∧ t.capacityClass = .sdsc ∧ t.sel = true ∧ t.clk = .slow) ∨
      (t.result = .ok ∧ t.initialized = true ∧ t.capacityClass = s.capacityClass ∧ t.sel = false ∧ t.clk = .fast)

/-! ## Host operations and registers -/

/-- 10_state.md sections 4 and 5: when idle, a request starts its operation at its first program point, writes the
request registers and, for a transfer, copies the operands into SECTOR and REMAIN, nothing else (R38, R221, the spec's
decisions D17 and D20). The buffer test is the model's choice (assumption 6), and so is the step of the copy
(assumption 2). -/
def Obligations.HostRequestsStartOperations : Prop :=
  ∀ (s : State) (sector count : Word32), s.phase = .idle →
    exec (.init sector count) s = .next { s with reqOp := 1, reqSector := sector, reqCount := count, phase := .iEntry } ∧
      (count.toNat * 512 ≤ s.bufLen →
        exec (.readBlocks sector count) s =
            .next { s with
                reqOp := 2, reqSector := sector, reqCount := count, sector := sector, remain := count, offset := 0
                phase := .rHead } ∧
          exec (.writeBlocks sector count) s =
            .next { s with
                reqOp := 3, reqSector := sector, reqCount := count, sector := sector, remain := count, offset := 0
                phase := .wHead })

/-- 93_implementation_defined.md part 1 (U3, U7): a request while busy, and a transfer whose buffer is too short, are
refused, each by its name: the model's choices (assumptions 6 and 7). -/
def Obligations.RequestsWithoutMeaningAreRefused : Prop :=
  ∀ (s : State) (sector count : Word32),
    (s.phase ≠ .idle →
        exec (.init sector count) s = .refused .requestWhileBusy ∧
        exec (.readBlocks sector count) s = .refused .requestWhileBusy ∧
        exec (.writeBlocks sector count) s = .refused .requestWhileBusy) ∧
      (s.phase = .idle → s.bufLen < count.toNat * 512 →
        exec (.readBlocks sector count) s = .refused .bufferTooShort ∧
          exec (.writeBlocks sector count) s = .refused .bufferTooShort)

/-- 10_state.md section 5: a write of REQ_OP with STAT.busy = 0 starts the operation with the operands then held, a
write of 0 does nothing, and the operand registers hold what is written (R38, the spec's decisions D17 and D20). The
step takes the write from the host's queue: the model's choice (assumption 5). That REQ_OP takes the low two bits of the
value and that a write of 0 leaves it as it was is read from the rule (DEDUCED, assumption 8). -/
def Obligations.HostWritesWhileIdle : Prop :=
  ∀ (s : State) (v : Word32) (q : List HostAccess), s.resetIn = false → s.phase = .idle →
    (s.hostQueue = .write .reqOp v :: q →
        (v.extractLsb' 0 2 = 0 → step s = .next { s with hostQueue := q }) ∧
        (v.extractLsb' 0 2 = 1 → step s = exec (.init s.reqSector s.reqCount) { s with hostQueue := q }) ∧
        (v.extractLsb' 0 2 = 2 → step s = exec (.readBlocks s.reqSector s.reqCount) { s with hostQueue := q }) ∧
        (v.extractLsb' 0 2 = 3 → step s = exec (.writeBlocks s.reqSector s.reqCount) { s with hostQueue := q })) ∧
      (s.hostQueue = .write .reqSector v :: q → step s = .next { s with hostQueue := q, reqSector := v }) ∧
      (s.hostQueue = .write .reqCount v :: q → step s = .next { s with hostQueue := q, reqCount := v }) ∧
      (s.hostQueue = .write .stat v :: q → step s = .next { s with hostQueue := q }) ∧
      (s.hostQueue = .pass :: q → step s = .next { s with hostQueue := q })

/-- 20_memory.md section 1: a bound buffer holds the host's bytes and has their number. The binding as an access is
the model's choice (assumption 6). -/
def Obligations.BoundBufferHoldsTheHostsBytes : Prop :=
  ∀ (s : State) (bytes : List Byte) (q : List HostAccess), s.resetIn = false → s.phase = .idle →
    s.hostQueue = .bindBuffer bytes :: q →
    ∃ t : State, step s = .next t ∧ t = { s with hostQueue := q, buf := t.buf, bufLen := bytes.length } ∧ t.buf.WF ∧
      ∀ j b, bytes[j]? = some b → t.buf.read j = b

/-- 10_state.md section 5: the fields of STAT, bit by bit, each a live copy but the result (R39, the spec's decision
D17). -/
def Obligations.StatFieldsAreLive : Prop :=
  ∀ s : State, s.stat.getLsbD 0 = (s.phase != .idle) ∧ s.stat.extractLsb' 1 3 = s.result.code ∧
    s.stat.getLsbD 4 = s.initialized ∧ s.stat.getLsbD 5 = (s.capacityClass == .sdhc) ∧ s.stat.getLsbD 6 = s.sel ∧
    s.stat.getLsbD 7 = (s.clk == .fast) ∧ s.hostRead .stat = s.stat.zeroExtend 32

/-- 60_exceptions.md section 1, table T-RESULT: the result codes; 6 and 7 are never produced (R271, the spec's
decision D18). -/
def Obligations.ResultCodesAreThoseOfTheTable : Prop :=
  Result.ok.code = 0 ∧ Result.cmd0Failed.code = 1 ∧ Result.commandRejected.code = 2 ∧ Result.dataTokenTimeout.code = 3 ∧
    Result.writeResponseRejected.code = 4 ∧ Result.writeBusyTimeout.code = 5 ∧
    ∀ r : Result, r.code ≠ 6 ∧ r.code ≠ 7

/-- 43_block_transfer.md section 1: a transfer of no sectors ends OK with no bus action and no state of the block
changed (R223, the spec's decision D32). -/
def Obligations.TransferOfNoSectorsIsOk : Prop :=
  ∀ (s : State) (sector : Word32), s.resetIn = false → s.phase = .idle →
    (∃ u t : State, exec (.readBlocks sector 0) s = .next u ∧ step u = .next t ∧ t.phase = .idle ∧ t.result = .ok ∧
        t.observe = { s.observe with results := s.results ++ [.ok] } ∧ t.card = s.card) ∧
      ∃ u t : State, exec (.writeBlocks sector 0) s = .next u ∧ step u = .next t ∧ t.phase = .idle ∧ t.result = .ok ∧
        t.observe = { s.observe with results := s.results ++ [.ok] } ∧ t.card = s.card

/-! ## The block transfer engine -/

/-- 43_block_transfer.md section 1, 20_memory.md section 4: EncodeAddress (R220), with the wrap mod 2^32 and the bits
it keeps (the spec's decision D14). -/
def Obligations.EncodeAddressByCapacityClass : Prop :=
  ∀ sector : Word32, encodeAddress .sdhc sector = sector ∧
    (encodeAddress .sdsc sector).toNat = sector.toNat * 512 % 2 ^ 32 ∧
    encodeAddress .sdsc sector = (sector.extractLsb' 0 23 ++ 0#9 : BitVec 32)

/-- 43_block_transfer.md sections 2 and 3 (R231, R241): at R_CMD17 and W_CMD24, and for a first sector at R_HEAD and W_HEAD,
the command of the sector carries its encoded address, with TLEN = 0; the first sector's is that of the request. That the
operands are copied in the request's step and that a head's step includes the first command's entry are the model's
choices (assumption 2). -/
def Obligations.TransfersSendTheCommandOfTheSector : Prop :=
  (∀ s : State, s.resetIn = false →
    (s.phase = .rCmd17 ∨ s.phase = .rHead ∧ s.remain ≠ 0 → ∃ t : State, step s = .next t ∧
        step s = exec (.cmd17 (encodeAddress s.capacityClass s.sector) s.par.crcOther) s.arrive ∧
        t.frame = ⟨17, encodeAddress s.capacityClass s.sector, s.par.crcOther⟩ ∧ t.tlen = 0 ∧ t.ret = .rCmd17) ∧
      (s.phase = .wCmd24 ∨ s.phase = .wHead ∧ s.remain ≠ 0 → ∃ t : State, step s = .next t ∧
        step s = exec (.cmd24 (encodeAddress s.capacityClass s.sector) s.par.crcOther) s.arrive ∧
        t.frame = ⟨24, encodeAddress s.capacityClass s.sector, s.par.crcOther⟩ ∧ t.tlen = 0 ∧ t.ret = .wCmd24)) ∧
    ∀ (s : State) (sector count : Word32), s.resetIn = false → s.phase = .idle → count ≠ 0 →
      count.toNat * 512 ≤ s.bufLen →
      (∃ u : State, exec (.readBlocks sector count) s = .next u ∧
        step u = exec (.cmd17 (encodeAddress s.capacityClass sector) s.par.crcOther) u.arrive) ∧
      ∃ u : State, exec (.writeBlocks sector count) s = .next u ∧
        step u = exec (.cmd24 (encodeAddress s.capacityClass sector) s.par.crcOther) u.arrive

/-- R232: an answer to CMD17 other than 0x00, a byte with bit 7 set after 500 polls included, ends the operation with
CommandRejected after a deselect and one filler and no token poll; 0x00 starts the token poll. -/
def Obligations.RejectedReadCommandEndsDeselected : Prop :=
  ∀ s : State, s.resetIn = false → s.phase = .fPoll → s.ret = .rCmd17 → s.tlen = 0 →
    (s.draw.msb = false ∨ s.poll + 1 = 500) →
    (s.draw = 0x00 → ∃ t : State, step s = .next t ∧ t.phase = .rToken ∧ t.poll = 0) ∧
      (s.draw ≠ 0x00 → ∃ t : State, run 3 s = .next t ∧ t.phase = .idle ∧ t.result = .commandRejected ∧ t.sel = false ∧
        t.clk = s.clk ∧ t.capacityClass = s.capacityClass ∧ t.initialized = s.initialized ∧ t.buf = s.buf ∧
        t.trace = s.trace ++ [{ tx := Config.filler, rx := s.draw, sel := s.sel, clk := s.clk },
          { tx := Config.filler, rx := s.card.advance.next, sel := false, clk := s.clk }])

/-- R242: the same for CMD24; after a rejection no data byte is sent and the buffer is not read. -/
def Obligations.RejectedWriteCommandEndsDeselected : Prop :=
  ∀ s : State, s.resetIn = false → s.phase = .fPoll → s.ret = .wCmd24 → s.tlen = 0 →
    (s.draw.msb = false ∨ s.poll + 1 = 500) →
    (s.draw = 0x00 → ∃ t : State, step s = .next t ∧ t.phase = .wGap) ∧
      (s.draw ≠ 0x00 → ∃ t : State, run 3 s = .next t ∧ t.phase = .idle ∧ t.result = .commandRejected ∧ t.sel = false ∧
        t.clk = s.clk ∧ t.capacityClass = s.capacityClass ∧ t.initialized = s.initialized ∧ t.buf = s.buf ∧
        t.trace = s.trace ++ [{ tx := Config.filler, rx := s.draw, sel := s.sel, clk := s.clk },
          { tx := Config.filler, rx := s.card.advance.next, sel := false, clk := s.clk }])

/-- R225: the error exit of both transfers: a deselect, one filler, then the error is returned; every error of the
engine leaves through it, and every exit of a transfer that made a bus action leaves SEL = 0. -/
def Obligations.ErrorExitDeselectsAndReturns : Prop :=
  (∀ s : State, s.resetIn = false → s.phase = .rErrDeselect ∨ s.phase = .wErrDeselect →
      ∃ t : State, run 2 s = .next t ∧ t.phase = .idle ∧ t.result = s.err ∧ t.results = s.results ++ [s.err] ∧
        t.sel = false ∧ t.trace = s.trace ++ [{ tx := Config.filler, rx := s.draw, sel := false, clk := s.clk }] ∧
        t = { s.arrivals 2 with
            phase := t.phase, result := t.result, results := t.results, sel := t.sel, trace := t.trace
            card := t.card, ser := t.ser }) ∧
    ∀ s t : State, s.Inv → s.resetIn = false → s.reqOp ≠ 1 → s.phase ≠ .idle → step s = .next t → t.phase = .idle →
      (t.result ≠ .ok → s.phase = .rErrFiller ∨ s.phase = .wErrFiller) ∧
        (s.phase ≠ .rHead → s.phase ≠ .wHead → t.sel = false)

/-- 43_block_transfer.md section 2: the token poll accepts 0xFE on any of 65535 exchanges, skipping every other byte
(R234, the bound read as the spec's decision D13). -/
def Obligations.TokenPollAcceptsTheStartToken : Prop :=
  ∀ (s : State) (skipped rest : List Byte), s.resetIn = false → s.phase = .rToken → s.poll = 0 →
    s.card.script = skipped ++ 0xFE :: rest → (∀ b ∈ skipped, b ≠ 0xFE) → skipped.length < 65535 →
    ∃ t : State, run (skipped.length + 1) s = .next t ∧ t.phase = .rData ∧ t.idx = 0 ∧ t.result = s.result ∧
      t.card = s.card.after (skipped.length + 1) rest ∧
      t.trace = s.trace ++ xfers Config.filler s.sel s.clk (skipped ++ [0xFE])

/-- R274: 65535 polling exchanges without 0xFE end the read with DataTokenTimeout, deselected after one filler, the
buffer untouched and nothing but the result recorded. -/
def Obligations.TokenPollTimesOut : Prop :=
  ∀ (s : State) (skipped rest : List Byte), s.resetIn = false → s.phase = .rToken → s.poll = 0 →
    s.card.script = skipped ++ rest → (∀ b ∈ skipped, b ≠ 0xFE) → skipped.length = 65535 →
    ∃ t : State, run (65535 + 2) s = .next t ∧ t.phase = .idle ∧ t.result = .dataTokenTimeout ∧
      t.results = s.results ++ [.dataTokenTimeout] ∧ t.sel = false ∧ t.buf = s.buf ∧
      (∃ closing, t.trace = s.trace ++ xfers Config.filler s.sel s.clk skipped ++ [closing] ∧
        closing.tx = Config.filler ∧ closing.sel = false) ∧
      t = { s.arrivals (65535 + 2) with
          phase := t.phase, result := t.result, results := t.results, err := t.err, sel := t.sel, poll := t.poll
          trace := t.trace, card := t.card, ser := t.ser }

/-- R235: 512 received bytes are stored at OFFSET to OFFSET + 511 in order, every other buffer byte is unchanged, and
two CRC bytes are exchanged and discarded; nothing can fail. -/
def Obligations.ReadStoresTheBlockInOrder : Prop :=
  ∀ (s : State) (data rest : List Byte) (crc1 crc2 : Byte), s.resetIn = false → s.phase = .rData → s.idx = 0 → s.buf.WF →
    s.offset + 512 ≤ s.bufLen → data.length = 512 → s.card.script = data ++ crc1 :: crc2 :: rest →
    ∃ t : State, run 514 s = .next t ∧ t.phase = .rEndDeselect ∧
      (∀ j b, data[j]? = some b → t.buf.read (s.offset + j) = b) ∧
      (∀ a, a < s.offset ∨ s.offset + 512 ≤ a → t.buf.read a = s.buf.read a) ∧
      t.trace = s.trace ++ xfers Config.filler s.sel s.clk (data ++ [crc1, crc2]) ∧
      t = { s.arrivals 514 with
          phase := t.phase, idx := t.idx, buf := t.buf, trace := t.trace, card := t.card, ser := t.ser }

/-- 43_block_transfer.md sections 1 to 3 (R236, R246): a completed sector is closed by a deselect and one filler; OFFSET,
SECTOR and REMAIN advance (R221; SECTOR mod 2^32 is the spec's decision D14, assumption 22); the operation ends OK when none
remains, else the next sector starts with the select of its own command. -/
def Obligations.CompletedSectorIsClosedAndCounted : Prop :=
  ∀ s : State, s.resetIn = false → s.phase = .rEndDeselect ∨ s.phase = .wEndDeselect →
    ∃ t : State, run 2 s = .next t ∧ t.sel = false ∧ t.offset = s.offset + 512 ∧
      t.sector.toNat = (s.sector.toNat + 1) % 2 ^ 32 ∧ t.remain = s.remain - 1 ∧ t.buf = s.buf ∧
      t.capacityClass = s.capacityClass ∧ t.clk = s.clk ∧
      t.trace = s.trace ++ [{ tx := Config.filler, rx := s.draw, sel := false, clk := s.clk }] ∧
      (s.remain = 1 → t.phase = .idle ∧ t.result = .ok ∧ t.results = s.results ++ [.ok]) ∧
      (s.remain ≠ 1 → t.result = s.result ∧ t.phase = (if s.phase = .rEndDeselect then .rCmd17 else .wCmd24) ∧
        ∃ v : State, step t = .next v ∧ v.sel = true ∧ v.trace = t.trace)

/-- R243: after CMD24 is accepted the block sends a filler, selects the selected card, sends the start token, the 512
buffer bytes at OFFSET in order and two 0xFF bytes; every answer is discarded, the buffer is unchanged, nothing can
fail. -/
def Obligations.WriteSendsTheBlockInOrder : Prop :=
  ∀ s : State, s.resetIn = false → s.phase = .wGap → s.sel = true → s.offset + 512 ≤ s.bufLen →
    ∃ t : State, run 517 s = .next t ∧ t.phase = .wResp ∧ t.sel = true ∧
      (∃ sent : List Xfer, t.trace = s.trace ++ sent ∧
        sent.map Xfer.tx = [0xFF, 0xFE] ++ (List.range 512).map (fun j => s.buf.read (s.offset + j)) ++ [0xFF, 0xFF] ∧
        ∀ x ∈ sent, x.sel = true ∧ x.clk = s.clk) ∧
      t = { s.arrivals 517 with phase := t.phase, idx := t.idx, trace := t.trace, card := t.card, ser := t.ser }

/-- R244: one filler exchange reads the data-response token; low 5 bits 00101 go on to the busy-wait, any other
pattern ends the operation with WriteResponseRejected after a deselect and one filler, with no busy-wait. -/
def Obligations.DataResponseDecidesTheWrite : Prop :=
  ∀ s : State, s.resetIn = false → s.phase = .wResp →
    (s.draw.extractLsb' 0 5 = 0b00101 → ∃ t : State, step s = .next t ∧ t.phase = .wBusy ∧ t.resp = s.draw ∧
        t.trace = s.trace ++ [{ tx := Config.filler, rx := s.draw, sel := s.sel, clk := s.clk }]) ∧
      (s.draw.extractLsb' 0 5 ≠ 0b00101 → ∃ t : State, run 3 s = .next t ∧ t.phase = .idle ∧ t.resp = s.draw ∧
        t.result = .writeResponseRejected ∧ t.sel = false ∧
        t.trace = s.trace ++ [{ tx := Config.filler, rx := s.draw, sel := s.sel, clk := s.clk },
          { tx := Config.filler, rx := s.card.advance.next, sel := false, clk := s.clk }])

/-- 60_exceptions.md section 2, 43_block_transfer.md section 3: with no bound and a card that answers 0x00 for ever,
the block waits at W_BUSY for ever, busy and selected (R279, the spec's decision D12). -/
def Obligations.ABusyCardHangsTheWrite : Prop :=
  ∀ s : State, s.resetIn = false → s.phase = .wBusy → s.par.writeBusyBound = none →
    s.card.script = [] → s.card.forever = some 0x00 →
    ∀ n : Nat, ∃ t : State, run n s = .next t ∧ t.phase = .wBusy ∧ t.busy = true ∧ t.sel = s.sel ∧ t.results = s.results ∧
      t.trace = s.trace ++ xfers Config.filler s.sel s.clk (List.replicate n 0x00)

/-- 30_encoding.md section 1 (R99), 43_block_transfer.md section 3: after an accepted data response, with no bound, the
busy-wait makes filler exchanges while they return 0x00 and ends at the first byte that is not 0x00, whatever it is and
after any number of them. That POLL is then not touched is read from R245 (DEDUCED, assumption 17). -/
def Obligations.BusyWaitEndsAtTheFirstOtherByte : Prop :=
  (∀ s : State, s.resetIn = false → s.phase = .wResp → s.draw.extractLsb' 0 5 = 0b00101 →
      ∃ t : State, step s = .next t ∧ t.phase = .wBusy) ∧
    ∀ (s : State) (n : Nat) (b : Byte) (rest : List Byte), s.resetIn = false → s.phase = .wBusy →
      s.par.writeBusyBound = none → b ≠ 0x00 → s.card.script = List.replicate n 0x00 ++ b :: rest →
      ∃ t : State, run (n + 1) s = .next t ∧ t.phase = .wEndDeselect ∧ t.poll = s.poll ∧
        t.trace = s.trace ++ xfers Config.filler s.sel s.clk (List.replicate n 0x00 ++ [b])

/-- 43_block_transfer.md section 3: the bounded variant (R248, the spec's decision D12). Entering the busy-wait sets
POLL to 0; a byte other than 0x00 on any of B exchanges ends the wait; B bytes 0x00 end the operation with
WriteBusyTimeout through the error exit. -/
def Obligations.BoundedBusyWaitTimesOut : Prop :=
  ∀ (s : State) (bound : Nat), s.resetIn = false → s.par.writeBusyBound = some bound → 1 ≤ bound →
    (s.phase = .wResp → s.draw.extractLsb' 0 5 = 0b00101 → ∃ t : State, step s = .next t ∧ t.phase = .wBusy ∧ t.poll = 0) ∧
      (∀ (n : Nat) (b : Byte) (rest : List Byte), s.phase = .wBusy → s.poll = 0 → n < bound → b ≠ 0x00 →
        s.card.script = List.replicate n 0x00 ++ b :: rest →
        ∃ t : State, run (n + 1) s = .next t ∧ t.phase = .wEndDeselect ∧ t.results = s.results) ∧
      (∀ rest : List Byte, s.phase = .wBusy → s.poll = 0 → s.card.script = List.replicate bound 0x00 ++ rest →
        ∃ t : State, run (bound + 2) s = .next t ∧ t.phase = .idle ∧ t.result = .writeBusyTimeout ∧ t.sel = false)

/-! ## Tokens: where each completes and what it does -/

/-- 30_encoding.md sections 1 and 3 (tokens sent): each is one exchange that transmits its byte; the answer is tested
only where the program point tests it. FILLER completes wherever its exchange is due, at R_DATA(j) within the bound
buffer. That a token's meaning does not check the program point is the model's choice (assumption 3). -/
def Obligations.SentTokensComplete : Prop :=
  ∀ s : State,
    ((s.phase = .rData → s.offset + s.idx < s.bufLen) →
      ∃ t : State, exec .filler s = .next t ∧
        t.trace = s.trace ++ [{ tx := 0xFF, rx := s.draw, sel := s.sel, clk := s.clk }] ∧ t.card = s.card.advance ∧
        t.sel = s.sel ∧ t.clk = s.clk ∧ t.initialized = s.initialized ∧ t.ret = s.ret ∧ t.frame = s.frame ∧
        t.tlen = s.tlen ∧ t.reqOp = s.reqOp ∧ t.reqSector = s.reqSector ∧ t.reqCount = s.reqCount ∧ t.bufLen = s.bufLen ∧
        t.hostQueue = s.hostQueue ∧ t.resetIn = s.resetIn ∧ t.par = s.par ∧
        (s.phase ≠ .rData → ∀ a, t.buf.read a = s.buf.read a) ∧
        (s.phase = .rData → s.buf.WF → t.buf.read (s.offset + s.idx) = s.draw ∧
          ∀ a, a ≠ s.offset + s.idx → t.buf.read a = s.buf.read a)) ∧
      (∃ t : State, exec .startTokenTx s = .next t ∧ t.phase = .wData ∧ t.idx = 0 ∧
        t.trace = s.trace ++ [{ tx := 0xFE, rx := s.draw, sel := s.sel, clk := s.clk }] ∧ t.card = s.card.advance ∧
        t = { s with phase := t.phase, idx := t.idx, trace := t.trace, card := t.card, ser := t.ser }) ∧
      ∃ t : State, exec .dummyCrc s = .next t ∧ t.idx = s.idx + 1 ∧ t.phase = (if s.idx + 1 < 2 then s.phase else .wResp) ∧
        t.trace = s.trace ++ [{ tx := 0xFF, rx := s.draw, sel := s.sel, clk := s.clk }] ∧ t.card = s.card.advance ∧
        t = { s with phase := t.phase, idx := t.idx, trace := t.trace, card := t.card, ser := t.ser }

/-- 30_encoding.md section 1, 10_state.md section 3: what a filler exchange writes at each program point, beside the record of
the exchange: the register the received byte goes to there, and nothing that the point's rule does not name. That FILLER's
meaning does not check the program point, so that it is spoken of also where another byte is due, is the model's choice
(assumption 3), and so is what it does where no exchange is due (assumption 24). -/
def Obligations.FillerWritesOnlyTheRegistersOfItsPoint : Prop :=
  ∀ s t : State, exec .filler s = .next t →
    t.r1 = (if s.phase = .fPoll then s.draw else s.r1) ∧
      t.resp = (if s.phase = .wResp then s.draw else s.resp) ∧
      (∀ k, k < 4 → t.trail.get k = if s.phase = .fTrail ∧ k = s.idx then s.draw else s.trail.get k) ∧
      (s.phase ∉ [Phase.rEndFiller, .wEndFiller] → t.offset = s.offset ∧ t.sector = s.sector ∧ t.remain = s.remain) ∧
      (s.phase ∉ [Phase.fPoll, .fTrail, .rEndFiller, .wEndFiller, .rErrFiller, .wErrFiller] →
        t.result = s.result ∧ t.results = s.results) ∧
      t.initialized = s.initialized ∧
      (s.phase ∉ [Phase.fPoll, .fTrail] → t.capacityClass = s.capacityClass ∧ t.v2 = s.v2 ∧ t.retry = s.retry) ∧
      (s.phase ∉ [Phase.fPoll, .fTrail, .rToken, .wResp, .wBusy] → t.err = s.err) ∧
      (s.phase ∉ [Phase.fTx, .fPoll, .fTrail, .rToken, .wResp, .wBusy] → t.poll = s.poll) ∧
      (s.phase ∉ [Phase.fTx, .fPoll, .fTrail, .iPowerup, .rToken, .rData, .rCrc, .wToken, .wData, .wCrc] → t.idx = s.idx)

/-- 30_encoding.md sections 1 and 3 (the R1 tokens): each ends the R1 poll with its byte in R1; the trailing bytes are
next, or the caller goes on, writing what its rule names. That a token is an exchange named by the byte received is
the model's choice (assumption 3). -/
def Obligations.R1TokensComplete : Prop :=
  ∀ (s : State) (i : Instr) (b : Byte),
    (i = .r1Valid b ∧ i.wf = true) ∨ (i = .r1Idle ∧ b = 0x01) ∨ (i = .r1Ready ∧ b = 0x00) →
    ∃ u : State, exec i s = .next (if 0 < s.tlen.val then { u with
        phase := .fTrail } else u.resume) ∧ u.r1 = b ∧ u.poll = s.poll + 1 ∧
      u.idx = 0 ∧ u.trace = s.trace ++ [{ tx := 0xFF, rx := b, sel := s.sel, clk := s.clk }] ∧
      u = { s with r1 := u.r1, poll := u.poll, idx := u.idx, trace := u.trace, card := s.card.advance, ser := u.ser } ∧
      u.resume = { u with
          phase := u.resume.phase, result := u.resume.result, results := u.resume.results, v2 := u.resume.v2
          retry := u.resume.retry, poll := u.resume.poll, err := u.resume.err
          capacityClass := u.resume.capacityClass }

/-- 30_encoding.md sections 1 and 3 (the start token, the data response and the busy byte received). That a token is
an exchange named by the byte received is the model's choice (assumption 3). That POLL is not touched without a bound is
DEDUCED, the counting under a bound is the spec's decision D12, and what a bound of 0 does is the model's choice
(assumption 17). The last 0x00 of a bound is the case of `BoundedBusyWaitTimesOut`. -/
def Obligations.DataTokensComplete : Prop :=
  ∀ s : State,
    (∃ t : State, exec .startTokenRx s = .next t ∧ t.phase = .rData ∧ t.idx = 0 ∧ t.poll = s.poll + 1 ∧
        t.trace = s.trace ++ [{ tx := 0xFF, rx := 0xFE, sel := s.sel, clk := s.clk }] ∧
        t = { s with
            phase := t.phase, idx := t.idx, poll := t.poll, trace := t.trace, card := s.card.advance, ser := t.ser }) ∧
      (∀ b, (Instr.dataAccepted b).wf = true → ∃ t : State, exec (.dataAccepted b) s = .next t ∧ t.phase = .wBusy ∧ t.resp = b ∧
        t.poll = (if s.par.writeBusyBound = none then s.poll else 0) ∧
        t.trace = s.trace ++ [{ tx := 0xFF, rx := b, sel := s.sel, clk := s.clk }] ∧
        t = { s with
            phase := t.phase, resp := t.resp, poll := t.poll, trace := t.trace, card := s.card.advance, ser := t.ser }) ∧
      (s.par.writeBusyBound ≠ some (s.poll + 1) → ∃ t : State, exec .busyByte s = .next t ∧ t.phase = s.phase ∧
        t.poll = (if s.par.writeBusyBound = none then s.poll else s.poll + 1) ∧
        t.trace = s.trace ++ [{ tx := 0xFF, rx := 0x00, sel := s.sel, clk := s.clk }] ∧
        t = { s with poll := t.poll, trace := t.trace, card := s.card.advance, ser := t.ser })

/-- 30_encoding.md sections 1 and 3 (the tokens of the trailing payload): each is stored in its place of TRAIL, the
others unchanged; the next trailing byte is due, or the caller goes on. That a token is an exchange named by the byte
received is the model's choice (assumption 3). -/
def Obligations.TrailTokensComplete : Prop :=
  ∀ (s : State) (i : Instr) (j : Nat) (b : Byte),
    (i = .echoVolt ∧ j = 2 ∧ b = 0x01) ∨ (i = .echoPattern ∧ j = 3 ∧ b = 0xAA) ∨ (i = .ocrCcs b ∧ j = 0 ∧ i.wf = true) →
    ∃ u : State, exec i s = .next (if j + 1 < s.tlen.val then { u with
        phase := .fTrail } else u.resume) ∧ u.trail.get j = b ∧
      (∀ k, k < 4 → k ≠ j → u.trail.get k = s.trail.get k) ∧ u.idx = j + 1 ∧
      u.trace = s.trace ++ [{ tx := 0xFF, rx := b, sel := s.sel, clk := s.clk }] ∧
      u = { s with trail := u.trail, idx := u.idx, trace := u.trace, card := s.card.advance, ser := u.ser } ∧
      u.resume = { u with
          phase := u.resume.phase, result := u.resume.result, results := u.resume.results, v2 := u.resume.v2
          retry := u.resume.retry, poll := u.resume.poll, err := u.resume.err
          capacityClass := u.resume.capacityClass }

/-! ## The serializer and the pins -/

/-- 40_bus_driver.md section 2, 20_memory.md section 2 (general knowledge, the spec's decision D2; assumption 15): at
bit level an exchange drives the sent byte most significant bit first, each bit before and through one pulse of SCLK,
samples MISO into RXSR as SCLK rises and shifts TXSR after it falls; it returns the byte sampled most significant bit
first and leaves TXSR all ones and BITCNT 0, with MOSI high, SCLK low and CS_n low exactly when the card is selected. -/
def Obligations.ExchangeIsMostSignificantBitFirst : Prop :=
  (∀ (tx rx : Byte) (s : State),
    s.exchangePins tx rx =
        ([tx.getLsbD 7, tx.getLsbD 6, tx.getLsbD 5, tx.getLsbD 4, tx.getLsbD 3, tx.getLsbD 2, tx.getLsbD 1,
          tx.getLsbD 0].flatMap fun bit =>
            [{ sclk := false, mosi := bit, csN := !s.sel }, { sclk := true, mosi := bit, csN := !s.sel },
              { sclk := false, mosi := bit, csN := !s.sel }]) ++ [(s.exchangeWith tx rx).pins] ∧
      (s.exchangeWith tx rx).ser = { txsr := 0xFF, rxsr := rx, bitcnt := 0, sclk := false } ∧
      (s.exchangeWith tx rx).pins = { sclk := false, mosi := true, csN := !s.sel }) ∧
    ∀ (miso : Bool) (r : Serializer),
      (r.raise miso).sclk = true ∧ (r.raise miso).rxsr.toNat = (r.rxsr.toNat * 2 + miso.toNat) % 256 ∧
        (r.raise miso).txsr = r.txsr ∧ (r.raise miso).bitcnt = r.bitcnt ∧
        r.lower.sclk = false ∧ r.lower.rxsr = r.rxsr ∧ r.lower.txsr = r.txsr ∧
        (r.clock miso).txsr.toNat = (r.txsr.toNat * 2 + 1) % 256 ∧ (r.clock miso).rxsr = (r.raise miso).rxsr ∧
        (r.clock miso).bitcnt = r.bitcnt + 1

/-! ## The sector iteration beside the host -/

/-- 43_block_transfer.md section 1: through a transfer SECTOR follows OFFSET, one sector for 512 bytes, and what is done and
what is left add up to the same request (R221; SECTOR mod 2^32 is the spec's decision D14, assumption 22), whatever the
host writes to its operand registers meanwhile (R38). -/
def Obligations.SectorFollowsOffset : Prop :=
  ∀ s t : State, s.Inv → s.resetIn = false → s.phase ≠ .idle → s.reqOp ≠ 1 → step s = .next t →
    t.sector - BitVec.ofNat 32 (t.offset / 512) = s.sector - BitVec.ofNat 32 (s.offset / 512) ∧
      t.offset + t.remain.toNat * 512 = s.offset + s.remain.toNat * 512
end

