-- ==== Sys2Proof/Laws/Codec.lean ====
section
/-! SUPPORT. The bit-level facts behind the encodings: bytes of a word and back, the first byte of a frame, the first byte of
a request word. -/

namespace Sys2Proof

theorem beWord_beBytes (w : Word32) :
    beWord (w.extractLsb' 24 8) (w.extractLsb' 16 8) (w.extractLsb' 8 8) (w.extractLsb' 0 8) = w := by
  unfold beWord
  apply BitVec.eq_of_getLsbD_eq
  intro i hi
  interval_cases i <;> simp only [BitVec.getLsbD_append, BitVec.getLsbD_extractLsb'] <;> rfl

theorem beBytes_beWord (b3 b2 b1 b0 : Byte) : beBytes (beWord b3 b2 b1 b0) = [b3, b2, b1, b0] := by
  unfold beBytes beWord
  congr 1
  · apply BitVec.eq_of_getLsbD_eq; intro i hi; interval_cases i <;> simp only [BitVec.getLsbD_append, BitVec.getLsbD_extractLsb'] <;> rfl
  congr 1
  · apply BitVec.eq_of_getLsbD_eq; intro i hi; interval_cases i <;> simp only [BitVec.getLsbD_append, BitVec.getLsbD_extractLsb'] <;> rfl
  congr 1
  · apply BitVec.eq_of_getLsbD_eq; intro i hi; interval_cases i <;> simp only [BitVec.getLsbD_append, BitVec.getLsbD_extractLsb'] <;> rfl
  congr 1
  · apply BitVec.eq_of_getLsbD_eq; intro i hi; interval_cases i <;> simp only [BitVec.getLsbD_append, BitVec.getLsbD_extractLsb'] <;> rfl

theorem prefix_extract_high (x : BitVec 6) : (0b01#2 ++ x : BitVec 8).extractLsb' 6 2 = 0b01 := by
  apply BitVec.eq_of_getLsbD_eq; intro i hi; interval_cases i <;> simp only [BitVec.getLsbD_append, BitVec.getLsbD_extractLsb'] <;> rfl

theorem prefix_extract_low (x : BitVec 6) : (0b01#2 ++ x : BitVec 8).extractLsb' 0 6 = x := by
  apply BitVec.eq_of_getLsbD_eq; intro i hi; interval_cases i <;> simp only [BitVec.getLsbD_append, BitVec.getLsbD_extractLsb'] <;> rfl

theorem op_extract_high (x : BitVec 2) : (0#6 ++ x : BitVec 8).extractLsb' 2 6 = 0 := by
  apply BitVec.eq_of_getLsbD_eq; intro i hi; interval_cases i <;> simp only [BitVec.getLsbD_append, BitVec.getLsbD_extractLsb'] <;> rfl

theorem op_extract_low (x : BitVec 2) : (0#6 ++ x : BitVec 8).extractLsb' 0 2 = x := by
  apply BitVec.eq_of_getLsbD_eq; intro i hi; interval_cases i <;> simp only [BitVec.getLsbD_append, BitVec.getLsbD_extractLsb'] <;> rfl

/-- Frame byte 0 is the two fixed bits in front of the index (R91, R102). -/
theorem cmdPrefix_or (x : BitVec 6) : Config.cmdPrefix ||| x.zeroExtend 8 = (0b01#2 ++ x : BitVec 8) := by
  apply BitVec.eq_of_getLsbD_eq; intro i hi
  interval_cases i <;> simp only [BitVec.getLsbD_or, BitVec.getLsbD_append, BitVec.getLsbD_setWidth, BitVec.zeroExtend] <;>
    first | rfl | (rw [BitVec.getLsbD_of_ge x 7 (by omega)]; rfl)

theorem request_op_extract (x : BitVec 2) : (x.zeroExtend 32).extractLsb' 0 2 = x := by
  apply BitVec.eq_of_getLsbD_eq; intro i hi
  interval_cases i <;> simp only [BitVec.getLsbD_extractLsb', BitVec.getLsbD_setWidth, BitVec.zeroExtend] <;> rfl

namespace Machine

/-- The bytes a frame is sent as decode as its fields do. -/
theorem decode_frame_bytes (f : Frame) : decode .cmdFrame f.bytes = decodeFrame f.index f.argument f.crc := by
  simp only [Frame.bytes, Frame.byte, decode, cmdPrefix_or, prefix_extract_high, prefix_extract_low, beWord_beBytes, if_true]

/-- The request word decodes as its fields do. -/
theorem decode_request_bytes (op : BitVec 2) (a n : Word32) :
    decode .hostReq (requestBytes op a n) = decodeRequest op a n := by
  simp only [requestBytes, beBytes, List.cons_append, List.nil_append, decode, op_extract_high, op_extract_low,
    beWord_beBytes, if_true]

end Machine

end Sys2Proof
end

