-- ==== Sys2Proof/Laws/Memory.lean ====
section
/-! SUPPORT. The laws of memory: read after write, and that every operation keeps the canonical form. -/

namespace Sys2Proof.Machine

theorem Memory.read_nil (x : Nat) : Memory.read [] x = Memory.unlisted := rfl

/-- An address below every listed one reads as unlisted. -/
theorem Memory.read_of_lt (m : Memory) (x : Nat) (h : ∀ c ∈ m, x < c.1) : Memory.read m x = Memory.unlisted := by
  induction m with
  | nil => rfl
  | cons c m ih =>
    have hc := h c (by simp)
    simp only [Memory.read]
    rw [if_neg (by omega)]
    exact ih fun d hd => h d (by simp [hd])

/-- A store lists only addresses that were listed or is the one stored to. -/
theorem Memory.mem_write (m : Memory) (x : Nat) (v : Byte) (c : Host.Cell) (h : c ∈ Memory.write m x v) :
    c ∈ m ∨ c = (x, v) := by
  induction m with
  | nil => simp only [Memory.write] at h; split at h <;> simp_all
  | cons d m ih =>
    simp only [Memory.write] at h
    split at h
    · rcases List.mem_cons.1 h with rfl | h
      · simp
      · rcases ih h with h | h <;> simp [h]
    · split at h
      · split at h <;> simp_all
        tauto
      · split at h <;> simp_all
        tauto

theorem Memory.write_WF (m : Memory) (x : Nat) (v : Byte) (h : m.WF) : (Memory.write m x v).WF := by
  induction m with
  | nil =>
    simp only [Memory.write]
    split <;> simp_all [Memory.WF]
  | cons d m ih =>
    obtain ⟨hp, hu⟩ := h
    rw [List.pairwise_cons] at hp
    have hm : Memory.WF m := ⟨hp.2, fun c hc => hu c (by simp [hc])⟩
    have hd := hu d (by simp)
    simp only [Memory.write]
    split
    · rename_i hlt
      have hw := ih hm
      refine ⟨List.pairwise_cons.2 ⟨fun c hc => ?_, hw.1⟩, fun c hc => ?_⟩
      · rcases Memory.mem_write m x v c hc with h | rfl
        · exact hp.1 c h
        · exact hlt
      · rcases List.mem_cons.1 hc with rfl | hc
        · exact hd
        · exact hw.2 c hc
    · split
      · split
        · exact hm
        · refine ⟨List.pairwise_cons.2 ⟨fun c hc => ?_, hm.1⟩, fun c hc => ?_⟩
          · have := hp.1 c hc; simp only; omega
          · rcases List.mem_cons.1 hc with rfl | hc
            · assumption
            · exact hm.2 c hc
      · split
        · exact ⟨List.pairwise_cons.2 hp, hu⟩
        · refine ⟨List.pairwise_cons.2 ⟨fun c hc => ?_, List.pairwise_cons.2 hp⟩, fun c hc => ?_⟩
          · rcases List.mem_cons.1 hc with rfl | hc
            · simp only; omega
            · have := hp.1 c hc; simp only; omega
          · rcases List.mem_cons.1 hc with rfl | hc
            · assumption
            · exact hu c hc

/-- A read after a store in canonical memory: the byte stored there, the old byte anywhere else. -/
theorem Memory.read_write (m : Memory) (x y : Nat) (v : Byte) (h : m.WF) :
    Memory.read (Memory.write m x v) y = if y = x then v else Memory.read m y := by
  induction m with
  | nil =>
    simp only [Memory.write]
    split
    · simp only [Memory.read]; split <;> simp_all
    · simp only [Memory.read]; split <;> split <;> simp_all
  | cons d m ih =>
    obtain ⟨hp, hu⟩ := h
    rw [List.pairwise_cons] at hp
    have hm : Memory.WF m := ⟨hp.2, fun c hc => hu c (by simp [hc])⟩
    obtain ⟨a, u⟩ := d
    simp only [Memory.write]
    split
    · rename_i hlt
      simp only [Memory.read, ih hm]
      split <;> split <;> first | rfl | omega
    · split
      · rename_i hax
        subst hax
        split
        · rename_i hv
          split
          · subst_vars
            exact (Memory.read_of_lt m _ hp.1).trans rfl
          · simp only [Memory.read]
            rw [if_neg (by omega)]
        · simp only [Memory.read]
          split <;> split <;> first | rfl | omega
      · split
        · rename_i hv
          split
          · subst_vars
            refine (Memory.read_of_lt ((a, u) :: m) _ fun c hc => ?_).trans rfl
            rcases List.mem_cons.1 hc with rfl | hc
            · simp only; omega
            · have := hp.1 c hc; simp only at this; omega
          · rfl
        · simp only [Memory.read]
          by_cases hy : y = x
          · rw [if_pos hy.symm, if_pos hy]
          · rw [if_neg fun e => hy e.symm, if_neg hy]

theorem Memory.read_write_same (m : Memory) (x : Nat) (v : Byte) (h : m.WF) :
    Memory.read (Memory.write m x v) x = v := by rw [Memory.read_write m x x v h, if_pos rfl]

theorem Memory.read_write_other (m : Memory) (x y : Nat) (v : Byte) (h : m.WF) (hy : y ≠ x) :
    Memory.read (Memory.write m x v) y = Memory.read m y := by rw [Memory.read_write m x y v h, if_neg hy]

theorem Memory.le_of_mem_ofBytes (a : Nat) (bs : List Byte) (c : Host.Cell) (h : c ∈ Memory.ofBytes a bs) : a ≤ c.1 := by
  induction bs generalizing a with
  | nil => simp [Memory.ofBytes] at h
  | cons b bs ih =>
    simp only [Memory.ofBytes] at h
    split at h
    · have := ih (a + 1) h; omega
    · rcases List.mem_cons.1 h with rfl | h
      · exact Nat.le_refl _
      · have := ih (a + 1) h; omega

theorem Memory.ofBytes_WF (a : Nat) (bs : List Byte) : (Memory.ofBytes a bs).WF := by
  induction bs generalizing a with
  | nil => simp [Memory.ofBytes, Memory.WF]
  | cons b bs ih =>
    simp only [Memory.ofBytes]
    split
    · exact ih (a + 1)
    · refine ⟨List.pairwise_cons.2 ⟨fun c hc => ?_, (ih (a + 1)).1⟩, fun c hc => ?_⟩
      · have := Memory.le_of_mem_ofBytes (a + 1) bs c hc; simp only; omega
      · rcases List.mem_cons.1 hc with rfl | hc
        · assumption
        · exact (ih (a + 1)).2 c hc

/-- A bound buffer reads as the bytes the host gave. -/
theorem Memory.read_ofBytes (a j : Nat) (bs : List Byte) (h : j < bs.length) :
    Memory.read (Memory.ofBytes a bs) (a + j) = bs[j] := by
  induction bs generalizing a j with
  | nil => simp at h
  | cons b bs ih =>
    cases j with
    | zero =>
      simp only [Memory.ofBytes]
      split
      · have := Memory.read_of_lt (Memory.ofBytes (a + 1) bs) a
          fun c hc => Memory.le_of_mem_ofBytes (a + 1) bs c hc
        simp_all
      · simp [Memory.read]
    | succ j =>
      have hj : j < bs.length := by simpa using h
      have e : a + (j + 1) = a + 1 + j := by omega
      have := ih (a + 1) j hj
      simp only [Memory.ofBytes]
      split
      · simp only [List.getElem_cons_succ]; rw [e]; exact this
      · simp only [Memory.read, List.getElem_cons_succ]
        rw [if_neg (by omega), e]; exact this

end Sys2Proof.Machine
end

