-- ==== Sys2Proof/Laws/State.lean ====
section
/-! SUPPORT. What each update does to each field of State: one lemma a field, so that no proof unfolds an update. -/

namespace Sys2Proof.Machine

/-! ## State.exchangeWith -/

@[simp] theorem State.exchangeWith_capacityClass (tx rx : Byte) (s : State) : (s.exchangeWith tx rx).capacityClass = s.capacityClass := rfl
@[simp] theorem State.exchangeWith_initialized (tx rx : Byte) (s : State) : (s.exchangeWith tx rx).initialized = s.initialized := rfl
@[simp] theorem State.exchangeWith_sel (tx rx : Byte) (s : State) : (s.exchangeWith tx rx).sel = s.sel := rfl
@[simp] theorem State.exchangeWith_clk (tx rx : Byte) (s : State) : (s.exchangeWith tx rx).clk = s.clk := rfl
@[simp] theorem State.exchangeWith_phase (tx rx : Byte) (s : State) : (s.exchangeWith tx rx).phase = s.phase := rfl
@[simp] theorem State.exchangeWith_ret (tx rx : Byte) (s : State) : (s.exchangeWith tx rx).ret = s.ret := rfl
@[simp] theorem State.exchangeWith_frame (tx rx : Byte) (s : State) : (s.exchangeWith tx rx).frame = s.frame := rfl
@[simp] theorem State.exchangeWith_tlen (tx rx : Byte) (s : State) : (s.exchangeWith tx rx).tlen = s.tlen := rfl
@[simp] theorem State.exchangeWith_r1 (tx rx : Byte) (s : State) : (s.exchangeWith tx rx).r1 = s.r1 := rfl
@[simp] theorem State.exchangeWith_trail (tx rx : Byte) (s : State) : (s.exchangeWith tx rx).trail = s.trail := rfl
@[simp] theorem State.exchangeWith_poll (tx rx : Byte) (s : State) : (s.exchangeWith tx rx).poll = s.poll := rfl
@[simp] theorem State.exchangeWith_retry (tx rx : Byte) (s : State) : (s.exchangeWith tx rx).retry = s.retry := rfl
@[simp] theorem State.exchangeWith_v2 (tx rx : Byte) (s : State) : (s.exchangeWith tx rx).v2 = s.v2 := rfl
@[simp] theorem State.exchangeWith_idx (tx rx : Byte) (s : State) : (s.exchangeWith tx rx).idx = s.idx := rfl
@[simp] theorem State.exchangeWith_sector (tx rx : Byte) (s : State) : (s.exchangeWith tx rx).sector = s.sector := rfl
@[simp] theorem State.exchangeWith_remain (tx rx : Byte) (s : State) : (s.exchangeWith tx rx).remain = s.remain := rfl
@[simp] theorem State.exchangeWith_offset (tx rx : Byte) (s : State) : (s.exchangeWith tx rx).offset = s.offset := rfl
@[simp] theorem State.exchangeWith_resp (tx rx : Byte) (s : State) : (s.exchangeWith tx rx).resp = s.resp := rfl
@[simp] theorem State.exchangeWith_err (tx rx : Byte) (s : State) : (s.exchangeWith tx rx).err = s.err := rfl
@[simp] theorem State.exchangeWith_ser (tx rx : Byte) (s : State) : (s.exchangeWith tx rx).ser = Serializer.shift (bitsMsbFirst rx) (Serializer.load tx) := rfl
@[simp] theorem State.exchangeWith_reqOp (tx rx : Byte) (s : State) : (s.exchangeWith tx rx).reqOp = s.reqOp := rfl
@[simp] theorem State.exchangeWith_reqSector (tx rx : Byte) (s : State) : (s.exchangeWith tx rx).reqSector = s.reqSector := rfl
@[simp] theorem State.exchangeWith_reqCount (tx rx : Byte) (s : State) : (s.exchangeWith tx rx).reqCount = s.reqCount := rfl
@[simp] theorem State.exchangeWith_result (tx rx : Byte) (s : State) : (s.exchangeWith tx rx).result = s.result := rfl
@[simp] theorem State.exchangeWith_buf (tx rx : Byte) (s : State) : (s.exchangeWith tx rx).buf = s.buf := rfl
@[simp] theorem State.exchangeWith_bufLen (tx rx : Byte) (s : State) : (s.exchangeWith tx rx).bufLen = s.bufLen := rfl
@[simp] theorem State.exchangeWith_trace (tx rx : Byte) (s : State) : (s.exchangeWith tx rx).trace = s.trace ++ [{ tx := tx, rx := rx, sel := s.sel, clk := s.clk }] := rfl
@[simp] theorem State.exchangeWith_results (tx rx : Byte) (s : State) : (s.exchangeWith tx rx).results = s.results := rfl
@[simp] theorem State.exchangeWith_card (tx rx : Byte) (s : State) : (s.exchangeWith tx rx).card = s.card.advance := rfl
@[simp] theorem State.exchangeWith_hostQueue (tx rx : Byte) (s : State) : (s.exchangeWith tx rx).hostQueue = s.hostQueue := rfl
@[simp] theorem State.exchangeWith_resetIn (tx rx : Byte) (s : State) : (s.exchangeWith tx rx).resetIn = s.resetIn := rfl
@[simp] theorem State.exchangeWith_par (tx rx : Byte) (s : State) : (s.exchangeWith tx rx).par = s.par := rfl

/-! ## State.select -/

@[simp] theorem State.select_capacityClass (s : State) : s.select.capacityClass = s.capacityClass := rfl
@[simp] theorem State.select_initialized (s : State) : s.select.initialized = s.initialized := rfl
@[simp] theorem State.select_sel (s : State) : s.select.sel = true := rfl
@[simp] theorem State.select_clk (s : State) : s.select.clk = s.clk := rfl
@[simp] theorem State.select_phase (s : State) : s.select.phase = s.phase := rfl
@[simp] theorem State.select_ret (s : State) : s.select.ret = s.ret := rfl
@[simp] theorem State.select_frame (s : State) : s.select.frame = s.frame := rfl
@[simp] theorem State.select_tlen (s : State) : s.select.tlen = s.tlen := rfl
@[simp] theorem State.select_r1 (s : State) : s.select.r1 = s.r1 := rfl
@[simp] theorem State.select_trail (s : State) : s.select.trail = s.trail := rfl
@[simp] theorem State.select_poll (s : State) : s.select.poll = s.poll := rfl
@[simp] theorem State.select_retry (s : State) : s.select.retry = s.retry := rfl
@[simp] theorem State.select_v2 (s : State) : s.select.v2 = s.v2 := rfl
@[simp] theorem State.select_idx (s : State) : s.select.idx = s.idx := rfl
@[simp] theorem State.select_sector (s : State) : s.select.sector = s.sector := rfl
@[simp] theorem State.select_remain (s : State) : s.select.remain = s.remain := rfl
@[simp] theorem State.select_offset (s : State) : s.select.offset = s.offset := rfl
@[simp] theorem State.select_resp (s : State) : s.select.resp = s.resp := rfl
@[simp] theorem State.select_err (s : State) : s.select.err = s.err := rfl
@[simp] theorem State.select_ser (s : State) : s.select.ser = s.ser := rfl
@[simp] theorem State.select_reqOp (s : State) : s.select.reqOp = s.reqOp := rfl
@[simp] theorem State.select_reqSector (s : State) : s.select.reqSector = s.reqSector := rfl
@[simp] theorem State.select_reqCount (s : State) : s.select.reqCount = s.reqCount := rfl
@[simp] theorem State.select_result (s : State) : s.select.result = s.result := rfl
@[simp] theorem State.select_buf (s : State) : s.select.buf = s.buf := rfl
@[simp] theorem State.select_bufLen (s : State) : s.select.bufLen = s.bufLen := rfl
@[simp] theorem State.select_trace (s : State) : s.select.trace = s.trace := rfl
@[simp] theorem State.select_results (s : State) : s.select.results = s.results := rfl
@[simp] theorem State.select_card (s : State) : s.select.card = s.card := rfl
@[simp] theorem State.select_hostQueue (s : State) : s.select.hostQueue = s.hostQueue := rfl
@[simp] theorem State.select_resetIn (s : State) : s.select.resetIn = s.resetIn := rfl
@[simp] theorem State.select_par (s : State) : s.select.par = s.par := rfl

/-! ## State.deselect -/

@[simp] theorem State.deselect_capacityClass (s : State) : s.deselect.capacityClass = s.capacityClass := rfl
@[simp] theorem State.deselect_initialized (s : State) : s.deselect.initialized = s.initialized := rfl
@[simp] theorem State.deselect_sel (s : State) : s.deselect.sel = false := rfl
@[simp] theorem State.deselect_clk (s : State) : s.deselect.clk = s.clk := rfl
@[simp] theorem State.deselect_phase (s : State) : s.deselect.phase = s.phase := rfl
@[simp] theorem State.deselect_ret (s : State) : s.deselect.ret = s.ret := rfl
@[simp] theorem State.deselect_frame (s : State) : s.deselect.frame = s.frame := rfl
@[simp] theorem State.deselect_tlen (s : State) : s.deselect.tlen = s.tlen := rfl
@[simp] theorem State.deselect_r1 (s : State) : s.deselect.r1 = s.r1 := rfl
@[simp] theorem State.deselect_trail (s : State) : s.deselect.trail = s.trail := rfl
@[simp] theorem State.deselect_poll (s : State) : s.deselect.poll = s.poll := rfl
@[simp] theorem State.deselect_retry (s : State) : s.deselect.retry = s.retry := rfl
@[simp] theorem State.deselect_v2 (s : State) : s.deselect.v2 = s.v2 := rfl
@[simp] theorem State.deselect_idx (s : State) : s.deselect.idx = s.idx := rfl
@[simp] theorem State.deselect_sector (s : State) : s.deselect.sector = s.sector := rfl
@[simp] theorem State.deselect_remain (s : State) : s.deselect.remain = s.remain := rfl
@[simp] theorem State.deselect_offset (s : State) : s.deselect.offset = s.offset := rfl
@[simp] theorem State.deselect_resp (s : State) : s.deselect.resp = s.resp := rfl
@[simp] theorem State.deselect_err (s : State) : s.deselect.err = s.err := rfl
@[simp] theorem State.deselect_ser (s : State) : s.deselect.ser = s.ser := rfl
@[simp] theorem State.deselect_reqOp (s : State) : s.deselect.reqOp = s.reqOp := rfl
@[simp] theorem State.deselect_reqSector (s : State) : s.deselect.reqSector = s.reqSector := rfl
@[simp] theorem State.deselect_reqCount (s : State) : s.deselect.reqCount = s.reqCount := rfl
@[simp] theorem State.deselect_result (s : State) : s.deselect.result = s.result := rfl
@[simp] theorem State.deselect_buf (s : State) : s.deselect.buf = s.buf := rfl
@[simp] theorem State.deselect_bufLen (s : State) : s.deselect.bufLen = s.bufLen := rfl
@[simp] theorem State.deselect_trace (s : State) : s.deselect.trace = s.trace := rfl
@[simp] theorem State.deselect_results (s : State) : s.deselect.results = s.results := rfl
@[simp] theorem State.deselect_card (s : State) : s.deselect.card = s.card := rfl
@[simp] theorem State.deselect_hostQueue (s : State) : s.deselect.hostQueue = s.hostQueue := rfl
@[simp] theorem State.deselect_resetIn (s : State) : s.deselect.resetIn = s.resetIn := rfl
@[simp] theorem State.deselect_par (s : State) : s.deselect.par = s.par := rfl

/-! ## State.setClock -/

@[simp] theorem State.setClock_capacityClass (c : ClockSpeed) (s : State) : (s.setClock c).capacityClass = s.capacityClass := rfl
@[simp] theorem State.setClock_initialized (c : ClockSpeed) (s : State) : (s.setClock c).initialized = s.initialized := rfl
@[simp] theorem State.setClock_sel (c : ClockSpeed) (s : State) : (s.setClock c).sel = s.sel := rfl
@[simp] theorem State.setClock_clk (c : ClockSpeed) (s : State) : (s.setClock c).clk = c := rfl
@[simp] theorem State.setClock_phase (c : ClockSpeed) (s : State) : (s.setClock c).phase = s.phase := rfl
@[simp] theorem State.setClock_ret (c : ClockSpeed) (s : State) : (s.setClock c).ret = s.ret := rfl
@[simp] theorem State.setClock_frame (c : ClockSpeed) (s : State) : (s.setClock c).frame = s.frame := rfl
@[simp] theorem State.setClock_tlen (c : ClockSpeed) (s : State) : (s.setClock c).tlen = s.tlen := rfl
@[simp] theorem State.setClock_r1 (c : ClockSpeed) (s : State) : (s.setClock c).r1 = s.r1 := rfl
@[simp] theorem State.setClock_trail (c : ClockSpeed) (s : State) : (s.setClock c).trail = s.trail := rfl
@[simp] theorem State.setClock_poll (c : ClockSpeed) (s : State) : (s.setClock c).poll = s.poll := rfl
@[simp] theorem State.setClock_retry (c : ClockSpeed) (s : State) : (s.setClock c).retry = s.retry := rfl
@[simp] theorem State.setClock_v2 (c : ClockSpeed) (s : State) : (s.setClock c).v2 = s.v2 := rfl
@[simp] theorem State.setClock_idx (c : ClockSpeed) (s : State) : (s.setClock c).idx = s.idx := rfl
@[simp] theorem State.setClock_sector (c : ClockSpeed) (s : State) : (s.setClock c).sector = s.sector := rfl
@[simp] theorem State.setClock_remain (c : ClockSpeed) (s : State) : (s.setClock c).remain = s.remain := rfl
@[simp] theorem State.setClock_offset (c : ClockSpeed) (s : State) : (s.setClock c).offset = s.offset := rfl
@[simp] theorem State.setClock_resp (c : ClockSpeed) (s : State) : (s.setClock c).resp = s.resp := rfl
@[simp] theorem State.setClock_err (c : ClockSpeed) (s : State) : (s.setClock c).err = s.err := rfl
@[simp] theorem State.setClock_ser (c : ClockSpeed) (s : State) : (s.setClock c).ser = s.ser := rfl
@[simp] theorem State.setClock_reqOp (c : ClockSpeed) (s : State) : (s.setClock c).reqOp = s.reqOp := rfl
@[simp] theorem State.setClock_reqSector (c : ClockSpeed) (s : State) : (s.setClock c).reqSector = s.reqSector := rfl
@[simp] theorem State.setClock_reqCount (c : ClockSpeed) (s : State) : (s.setClock c).reqCount = s.reqCount := rfl
@[simp] theorem State.setClock_result (c : ClockSpeed) (s : State) : (s.setClock c).result = s.result := rfl
@[simp] theorem State.setClock_buf (c : ClockSpeed) (s : State) : (s.setClock c).buf = s.buf := rfl
@[simp] theorem State.setClock_bufLen (c : ClockSpeed) (s : State) : (s.setClock c).bufLen = s.bufLen := rfl
@[simp] theorem State.setClock_trace (c : ClockSpeed) (s : State) : (s.setClock c).trace = s.trace := rfl
@[simp] theorem State.setClock_results (c : ClockSpeed) (s : State) : (s.setClock c).results = s.results := rfl
@[simp] theorem State.setClock_card (c : ClockSpeed) (s : State) : (s.setClock c).card = s.card := rfl
@[simp] theorem State.setClock_hostQueue (c : ClockSpeed) (s : State) : (s.setClock c).hostQueue = s.hostQueue := rfl
@[simp] theorem State.setClock_resetIn (c : ClockSpeed) (s : State) : (s.setClock c).resetIn = s.resetIn := rfl
@[simp] theorem State.setClock_par (c : ClockSpeed) (s : State) : (s.setClock c).par = s.par := rfl

/-! ## State.sendCommand -/

@[simp] theorem State.sendCommand_capacityClass (i : BitVec 6) (a : Word32) (c : Byte) (n : Fin 5) (p : RetPoint) (s : State) : (s.sendCommand i a c n p).capacityClass = s.capacityClass := rfl
@[simp] theorem State.sendCommand_initialized (i : BitVec 6) (a : Word32) (c : Byte) (n : Fin 5) (p : RetPoint) (s : State) : (s.sendCommand i a c n p).initialized = s.initialized := rfl
@[simp] theorem State.sendCommand_sel (i : BitVec 6) (a : Word32) (c : Byte) (n : Fin 5) (p : RetPoint) (s : State) : (s.sendCommand i a c n p).sel = true := rfl
@[simp] theorem State.sendCommand_clk (i : BitVec 6) (a : Word32) (c : Byte) (n : Fin 5) (p : RetPoint) (s : State) : (s.sendCommand i a c n p).clk = s.clk := rfl
@[simp] theorem State.sendCommand_phase (i : BitVec 6) (a : Word32) (c : Byte) (n : Fin 5) (p : RetPoint) (s : State) : (s.sendCommand i a c n p).phase = .fTx := rfl
@[simp] theorem State.sendCommand_ret (i : BitVec 6) (a : Word32) (c : Byte) (n : Fin 5) (p : RetPoint) (s : State) : (s.sendCommand i a c n p).ret = p := rfl
@[simp] theorem State.sendCommand_frame (i : BitVec 6) (a : Word32) (c : Byte) (n : Fin 5) (p : RetPoint) (s : State) : (s.sendCommand i a c n p).frame = { index := i, argument := a, crc := c } := rfl
@[simp] theorem State.sendCommand_tlen (i : BitVec 6) (a : Word32) (c : Byte) (n : Fin 5) (p : RetPoint) (s : State) : (s.sendCommand i a c n p).tlen = n := rfl
@[simp] theorem State.sendCommand_r1 (i : BitVec 6) (a : Word32) (c : Byte) (n : Fin 5) (p : RetPoint) (s : State) : (s.sendCommand i a c n p).r1 = s.r1 := rfl
@[simp] theorem State.sendCommand_trail (i : BitVec 6) (a : Word32) (c : Byte) (n : Fin 5) (p : RetPoint) (s : State) : (s.sendCommand i a c n p).trail = s.trail := rfl
@[simp] theorem State.sendCommand_poll (i : BitVec 6) (a : Word32) (c : Byte) (n : Fin 5) (p : RetPoint) (s : State) : (s.sendCommand i a c n p).poll = s.poll := rfl
@[simp] theorem State.sendCommand_retry (i : BitVec 6) (a : Word32) (c : Byte) (n : Fin 5) (p : RetPoint) (s : State) : (s.sendCommand i a c n p).retry = s.retry := rfl
@[simp] theorem State.sendCommand_v2 (i : BitVec 6) (a : Word32) (c : Byte) (n : Fin 5) (p : RetPoint) (s : State) : (s.sendCommand i a c n p).v2 = s.v2 := rfl
@[simp] theorem State.sendCommand_idx (i : BitVec 6) (a : Word32) (c : Byte) (n : Fin 5) (p : RetPoint) (s : State) : (s.sendCommand i a c n p).idx = 0 := rfl
@[simp] theorem State.sendCommand_sector (i : BitVec 6) (a : Word32) (c : Byte) (n : Fin 5) (p : RetPoint) (s : State) : (s.sendCommand i a c n p).sector = s.sector := rfl
@[simp] theorem State.sendCommand_remain (i : BitVec 6) (a : Word32) (c : Byte) (n : Fin 5) (p : RetPoint) (s : State) : (s.sendCommand i a c n p).remain = s.remain := rfl
@[simp] theorem State.sendCommand_offset (i : BitVec 6) (a : Word32) (c : Byte) (n : Fin 5) (p : RetPoint) (s : State) : (s.sendCommand i a c n p).offset = s.offset := rfl
@[simp] theorem State.sendCommand_resp (i : BitVec 6) (a : Word32) (c : Byte) (n : Fin 5) (p : RetPoint) (s : State) : (s.sendCommand i a c n p).resp = s.resp := rfl
@[simp] theorem State.sendCommand_err (i : BitVec 6) (a : Word32) (c : Byte) (n : Fin 5) (p : RetPoint) (s : State) : (s.sendCommand i a c n p).err = s.err := rfl
@[simp] theorem State.sendCommand_ser (i : BitVec 6) (a : Word32) (c : Byte) (n : Fin 5) (p : RetPoint) (s : State) : (s.sendCommand i a c n p).ser = s.ser := rfl
@[simp] theorem State.sendCommand_reqOp (i : BitVec 6) (a : Word32) (c : Byte) (n : Fin 5) (p : RetPoint) (s : State) : (s.sendCommand i a c n p).reqOp = s.reqOp := rfl
@[simp] theorem State.sendCommand_reqSector (i : BitVec 6) (a : Word32) (c : Byte) (n : Fin 5) (p : RetPoint) (s : State) : (s.sendCommand i a c n p).reqSector = s.reqSector := rfl
@[simp] theorem State.sendCommand_reqCount (i : BitVec 6) (a : Word32) (c : Byte) (n : Fin 5) (p : RetPoint) (s : State) : (s.sendCommand i a c n p).reqCount = s.reqCount := rfl
@[simp] theorem State.sendCommand_result (i : BitVec 6) (a : Word32) (c : Byte) (n : Fin 5) (p : RetPoint) (s : State) : (s.sendCommand i a c n p).result = s.result := rfl
@[simp] theorem State.sendCommand_buf (i : BitVec 6) (a : Word32) (c : Byte) (n : Fin 5) (p : RetPoint) (s : State) : (s.sendCommand i a c n p).buf = s.buf := rfl
@[simp] theorem State.sendCommand_bufLen (i : BitVec 6) (a : Word32) (c : Byte) (n : Fin 5) (p : RetPoint) (s : State) : (s.sendCommand i a c n p).bufLen = s.bufLen := rfl
@[simp] theorem State.sendCommand_trace (i : BitVec 6) (a : Word32) (c : Byte) (n : Fin 5) (p : RetPoint) (s : State) : (s.sendCommand i a c n p).trace = s.trace := rfl
@[simp] theorem State.sendCommand_results (i : BitVec 6) (a : Word32) (c : Byte) (n : Fin 5) (p : RetPoint) (s : State) : (s.sendCommand i a c n p).results = s.results := rfl
@[simp] theorem State.sendCommand_card (i : BitVec 6) (a : Word32) (c : Byte) (n : Fin 5) (p : RetPoint) (s : State) : (s.sendCommand i a c n p).card = s.card := rfl
@[simp] theorem State.sendCommand_hostQueue (i : BitVec 6) (a : Word32) (c : Byte) (n : Fin 5) (p : RetPoint) (s : State) : (s.sendCommand i a c n p).hostQueue = s.hostQueue := rfl
@[simp] theorem State.sendCommand_resetIn (i : BitVec 6) (a : Word32) (c : Byte) (n : Fin 5) (p : RetPoint) (s : State) : (s.sendCommand i a c n p).resetIn = s.resetIn := rfl
@[simp] theorem State.sendCommand_par (i : BitVec 6) (a : Word32) (c : Byte) (n : Fin 5) (p : RetPoint) (s : State) : (s.sendCommand i a c n p).par = s.par := rfl

/-! ## State.finish -/

@[simp] theorem State.finish_capacityClass (r : Result) (s : State) : (s.finish r).capacityClass = s.capacityClass := rfl
@[simp] theorem State.finish_initialized (r : Result) (s : State) : (s.finish r).initialized = s.initialized := rfl
@[simp] theorem State.finish_sel (r : Result) (s : State) : (s.finish r).sel = s.sel := rfl
@[simp] theorem State.finish_clk (r : Result) (s : State) : (s.finish r).clk = s.clk := rfl
@[simp] theorem State.finish_phase (r : Result) (s : State) : (s.finish r).phase = .idle := rfl
@[simp] theorem State.finish_ret (r : Result) (s : State) : (s.finish r).ret = s.ret := rfl
@[simp] theorem State.finish_frame (r : Result) (s : State) : (s.finish r).frame = s.frame := rfl
@[simp] theorem State.finish_tlen (r : Result) (s : State) : (s.finish r).tlen = s.tlen := rfl
@[simp] theorem State.finish_r1 (r : Result) (s : State) : (s.finish r).r1 = s.r1 := rfl
@[simp] theorem State.finish_trail (r : Result) (s : State) : (s.finish r).trail = s.trail := rfl
@[simp] theorem State.finish_poll (r : Result) (s : State) : (s.finish r).poll = s.poll := rfl
@[simp] theorem State.finish_retry (r : Result) (s : State) : (s.finish r).retry = s.retry := rfl
@[simp] theorem State.finish_v2 (r : Result) (s : State) : (s.finish r).v2 = s.v2 := rfl
@[simp] theorem State.finish_idx (r : Result) (s : State) : (s.finish r).idx = s.idx := rfl
@[simp] theorem State.finish_sector (r : Result) (s : State) : (s.finish r).sector = s.sector := rfl
@[simp] theorem State.finish_remain (r : Result) (s : State) : (s.finish r).remain = s.remain := rfl
@[simp] theorem State.finish_offset (r : Result) (s : State) : (s.finish r).offset = s.offset := rfl
@[simp] theorem State.finish_resp (r : Result) (s : State) : (s.finish r).resp = s.resp := rfl
@[simp] theorem State.finish_err (r : Result) (s : State) : (s.finish r).err = s.err := rfl
@[simp] theorem State.finish_ser (r : Result) (s : State) : (s.finish r).ser = s.ser := rfl
@[simp] theorem State.finish_reqOp (r : Result) (s : State) : (s.finish r).reqOp = s.reqOp := rfl
@[simp] theorem State.finish_reqSector (r : Result) (s : State) : (s.finish r).reqSector = s.reqSector := rfl
@[simp] theorem State.finish_reqCount (r : Result) (s : State) : (s.finish r).reqCount = s.reqCount := rfl
@[simp] theorem State.finish_result (r : Result) (s : State) : (s.finish r).result = r := rfl
@[simp] theorem State.finish_buf (r : Result) (s : State) : (s.finish r).buf = s.buf := rfl
@[simp] theorem State.finish_bufLen (r : Result) (s : State) : (s.finish r).bufLen = s.bufLen := rfl
@[simp] theorem State.finish_trace (r : Result) (s : State) : (s.finish r).trace = s.trace := rfl
@[simp] theorem State.finish_results (r : Result) (s : State) : (s.finish r).results = s.results ++ [r] := rfl
@[simp] theorem State.finish_card (r : Result) (s : State) : (s.finish r).card = s.card := rfl
@[simp] theorem State.finish_hostQueue (r : Result) (s : State) : (s.finish r).hostQueue = s.hostQueue := rfl
@[simp] theorem State.finish_resetIn (r : Result) (s : State) : (s.finish r).resetIn = s.resetIn := rfl
@[simp] theorem State.finish_par (r : Result) (s : State) : (s.finish r).par = s.par := rfl

/-! ## State.takeError -/

@[simp] theorem State.takeError_capacityClass (e : Engine) (r : Result) (s : State) : (s.takeError e r).capacityClass = s.capacityClass := rfl
@[simp] theorem State.takeError_initialized (e : Engine) (r : Result) (s : State) : (s.takeError e r).initialized = s.initialized := rfl
@[simp] theorem State.takeError_sel (e : Engine) (r : Result) (s : State) : (s.takeError e r).sel = s.sel := rfl
@[simp] theorem State.takeError_clk (e : Engine) (r : Result) (s : State) : (s.takeError e r).clk = s.clk := rfl
@[simp] theorem State.takeError_phase (e : Engine) (r : Result) (s : State) : (s.takeError e r).phase = e.errDeselect := rfl
@[simp] theorem State.takeError_ret (e : Engine) (r : Result) (s : State) : (s.takeError e r).ret = s.ret := rfl
@[simp] theorem State.takeError_frame (e : Engine) (r : Result) (s : State) : (s.takeError e r).frame = s.frame := rfl
@[simp] theorem State.takeError_tlen (e : Engine) (r : Result) (s : State) : (s.takeError e r).tlen = s.tlen := rfl
@[simp] theorem State.takeError_r1 (e : Engine) (r : Result) (s : State) : (s.takeError e r).r1 = s.r1 := rfl
@[simp] theorem State.takeError_trail (e : Engine) (r : Result) (s : State) : (s.takeError e r).trail = s.trail := rfl
@[simp] theorem State.takeError_poll (e : Engine) (r : Result) (s : State) : (s.takeError e r).poll = s.poll := rfl
@[simp] theorem State.takeError_retry (e : Engine) (r : Result) (s : State) : (s.takeError e r).retry = s.retry := rfl
@[simp] theorem State.takeError_v2 (e : Engine) (r : Result) (s : State) : (s.takeError e r).v2 = s.v2 := rfl
@[simp] theorem State.takeError_idx (e : Engine) (r : Result) (s : State) : (s.takeError e r).idx = s.idx := rfl
@[simp] theorem State.takeError_sector (e : Engine) (r : Result) (s : State) : (s.takeError e r).sector = s.sector := rfl
@[simp] theorem State.takeError_remain (e : Engine) (r : Result) (s : State) : (s.takeError e r).remain = s.remain := rfl
@[simp] theorem State.takeError_offset (e : Engine) (r : Result) (s : State) : (s.takeError e r).offset = s.offset := rfl
@[simp] theorem State.takeError_resp (e : Engine) (r : Result) (s : State) : (s.takeError e r).resp = s.resp := rfl
@[simp] theorem State.takeError_err (e : Engine) (r : Result) (s : State) : (s.takeError e r).err = r := rfl
@[simp] theorem State.takeError_ser (e : Engine) (r : Result) (s : State) : (s.takeError e r).ser = s.ser := rfl
@[simp] theorem State.takeError_reqOp (e : Engine) (r : Result) (s : State) : (s.takeError e r).reqOp = s.reqOp := rfl
@[simp] theorem State.takeError_reqSector (e : Engine) (r : Result) (s : State) : (s.takeError e r).reqSector = s.reqSector := rfl
@[simp] theorem State.takeError_reqCount (e : Engine) (r : Result) (s : State) : (s.takeError e r).reqCount = s.reqCount := rfl
@[simp] theorem State.takeError_result (e : Engine) (r : Result) (s : State) : (s.takeError e r).result = s.result := rfl
@[simp] theorem State.takeError_buf (e : Engine) (r : Result) (s : State) : (s.takeError e r).buf = s.buf := rfl
@[simp] theorem State.takeError_bufLen (e : Engine) (r : Result) (s : State) : (s.takeError e r).bufLen = s.bufLen := rfl
@[simp] theorem State.takeError_trace (e : Engine) (r : Result) (s : State) : (s.takeError e r).trace = s.trace := rfl
@[simp] theorem State.takeError_results (e : Engine) (r : Result) (s : State) : (s.takeError e r).results = s.results := rfl
@[simp] theorem State.takeError_card (e : Engine) (r : Result) (s : State) : (s.takeError e r).card = s.card := rfl
@[simp] theorem State.takeError_hostQueue (e : Engine) (r : Result) (s : State) : (s.takeError e r).hostQueue = s.hostQueue := rfl
@[simp] theorem State.takeError_resetIn (e : Engine) (r : Result) (s : State) : (s.takeError e r).resetIn = s.resetIn := rfl
@[simp] theorem State.takeError_par (e : Engine) (r : Result) (s : State) : (s.takeError e r).par = s.par := rfl

/-! ## State.start -/

@[simp] theorem State.start_capacityClass (op : BitVec 2) (a n : Word32) (p : Phase) (s : State) : (s.start op a n p).capacityClass = s.capacityClass := rfl
@[simp] theorem State.start_initialized (op : BitVec 2) (a n : Word32) (p : Phase) (s : State) : (s.start op a n p).initialized = s.initialized := rfl
@[simp] theorem State.start_sel (op : BitVec 2) (a n : Word32) (p : Phase) (s : State) : (s.start op a n p).sel = s.sel := rfl
@[simp] theorem State.start_clk (op : BitVec 2) (a n : Word32) (p : Phase) (s : State) : (s.start op a n p).clk = s.clk := rfl
@[simp] theorem State.start_phase (op : BitVec 2) (a n : Word32) (p : Phase) (s : State) : (s.start op a n p).phase = p := rfl
@[simp] theorem State.start_ret (op : BitVec 2) (a n : Word32) (p : Phase) (s : State) : (s.start op a n p).ret = s.ret := rfl
@[simp] theorem State.start_frame (op : BitVec 2) (a n : Word32) (p : Phase) (s : State) : (s.start op a n p).frame = s.frame := rfl
@[simp] theorem State.start_tlen (op : BitVec 2) (a n : Word32) (p : Phase) (s : State) : (s.start op a n p).tlen = s.tlen := rfl
@[simp] theorem State.start_r1 (op : BitVec 2) (a n : Word32) (p : Phase) (s : State) : (s.start op a n p).r1 = s.r1 := rfl
@[simp] theorem State.start_trail (op : BitVec 2) (a n : Word32) (p : Phase) (s : State) : (s.start op a n p).trail = s.trail := rfl
@[simp] theorem State.start_poll (op : BitVec 2) (a n : Word32) (p : Phase) (s : State) : (s.start op a n p).poll = s.poll := rfl
@[simp] theorem State.start_retry (op : BitVec 2) (a n : Word32) (p : Phase) (s : State) : (s.start op a n p).retry = s.retry := rfl
@[simp] theorem State.start_v2 (op : BitVec 2) (a n : Word32) (p : Phase) (s : State) : (s.start op a n p).v2 = s.v2 := rfl
@[simp] theorem State.start_idx (op : BitVec 2) (a n : Word32) (p : Phase) (s : State) : (s.start op a n p).idx = s.idx := rfl
@[simp] theorem State.start_sector (op : BitVec 2) (a n : Word32) (p : Phase) (s : State) : (s.start op a n p).sector = s.sector := rfl
@[simp] theorem State.start_remain (op : BitVec 2) (a n : Word32) (p : Phase) (s : State) : (s.start op a n p).remain = s.remain := rfl
@[simp] theorem State.start_offset (op : BitVec 2) (a n : Word32) (p : Phase) (s : State) : (s.start op a n p).offset = s.offset := rfl
@[simp] theorem State.start_resp (op : BitVec 2) (a n : Word32) (p : Phase) (s : State) : (s.start op a n p).resp = s.resp := rfl
@[simp] theorem State.start_err (op : BitVec 2) (a n : Word32) (p : Phase) (s : State) : (s.start op a n p).err = s.err := rfl
@[simp] theorem State.start_ser (op : BitVec 2) (a n : Word32) (p : Phase) (s : State) : (s.start op a n p).ser = s.ser := rfl
@[simp] theorem State.start_reqOp (op : BitVec 2) (a n : Word32) (p : Phase) (s : State) : (s.start op a n p).reqOp = op := rfl
@[simp] theorem State.start_reqSector (op : BitVec 2) (a n : Word32) (p : Phase) (s : State) : (s.start op a n p).reqSector = a := rfl
@[simp] theorem State.start_reqCount (op : BitVec 2) (a n : Word32) (p : Phase) (s : State) : (s.start op a n p).reqCount = n := rfl
@[simp] theorem State.start_result (op : BitVec 2) (a n : Word32) (p : Phase) (s : State) : (s.start op a n p).result = s.result := rfl
@[simp] theorem State.start_buf (op : BitVec 2) (a n : Word32) (p : Phase) (s : State) : (s.start op a n p).buf = s.buf := rfl
@[simp] theorem State.start_bufLen (op : BitVec 2) (a n : Word32) (p : Phase) (s : State) : (s.start op a n p).bufLen = s.bufLen := rfl
@[simp] theorem State.start_trace (op : BitVec 2) (a n : Word32) (p : Phase) (s : State) : (s.start op a n p).trace = s.trace := rfl
@[simp] theorem State.start_results (op : BitVec 2) (a n : Word32) (p : Phase) (s : State) : (s.start op a n p).results = s.results := rfl
@[simp] theorem State.start_card (op : BitVec 2) (a n : Word32) (p : Phase) (s : State) : (s.start op a n p).card = s.card := rfl
@[simp] theorem State.start_hostQueue (op : BitVec 2) (a n : Word32) (p : Phase) (s : State) : (s.start op a n p).hostQueue = s.hostQueue := rfl
@[simp] theorem State.start_resetIn (op : BitVec 2) (a n : Word32) (p : Phase) (s : State) : (s.start op a n p).resetIn = s.resetIn := rfl
@[simp] theorem State.start_par (op : BitVec 2) (a n : Word32) (p : Phase) (s : State) : (s.start op a n p).par = s.par := rfl

/-! ## State.loadOperands -/

@[simp] theorem State.loadOperands_capacityClass (s : State) : s.loadOperands.capacityClass = s.capacityClass := rfl
@[simp] theorem State.loadOperands_initialized (s : State) : s.loadOperands.initialized = s.initialized := rfl
@[simp] theorem State.loadOperands_sel (s : State) : s.loadOperands.sel = s.sel := rfl
@[simp] theorem State.loadOperands_clk (s : State) : s.loadOperands.clk = s.clk := rfl
@[simp] theorem State.loadOperands_phase (s : State) : s.loadOperands.phase = s.phase := rfl
@[simp] theorem State.loadOperands_ret (s : State) : s.loadOperands.ret = s.ret := rfl
@[simp] theorem State.loadOperands_frame (s : State) : s.loadOperands.frame = s.frame := rfl
@[simp] theorem State.loadOperands_tlen (s : State) : s.loadOperands.tlen = s.tlen := rfl
@[simp] theorem State.loadOperands_r1 (s : State) : s.loadOperands.r1 = s.r1 := rfl
@[simp] theorem State.loadOperands_trail (s : State) : s.loadOperands.trail = s.trail := rfl
@[simp] theorem State.loadOperands_poll (s : State) : s.loadOperands.poll = s.poll := rfl
@[simp] theorem State.loadOperands_retry (s : State) : s.loadOperands.retry = s.retry := rfl
@[simp] theorem State.loadOperands_v2 (s : State) : s.loadOperands.v2 = s.v2 := rfl
@[simp] theorem State.loadOperands_idx (s : State) : s.loadOperands.idx = s.idx := rfl
@[simp] theorem State.loadOperands_sector (s : State) : s.loadOperands.sector = s.reqSector := rfl
@[simp] theorem State.loadOperands_remain (s : State) : s.loadOperands.remain = s.reqCount := rfl
@[simp] theorem State.loadOperands_offset (s : State) : s.loadOperands.offset = 0 := rfl
@[simp] theorem State.loadOperands_resp (s : State) : s.loadOperands.resp = s.resp := rfl
@[simp] theorem State.loadOperands_err (s : State) : s.loadOperands.err = s.err := rfl
@[simp] theorem State.loadOperands_ser (s : State) : s.loadOperands.ser = s.ser := rfl
@[simp] theorem State.loadOperands_reqOp (s : State) : s.loadOperands.reqOp = s.reqOp := rfl
@[simp] theorem State.loadOperands_reqSector (s : State) : s.loadOperands.reqSector = s.reqSector := rfl
@[simp] theorem State.loadOperands_reqCount (s : State) : s.loadOperands.reqCount = s.reqCount := rfl
@[simp] theorem State.loadOperands_result (s : State) : s.loadOperands.result = s.result := rfl
@[simp] theorem State.loadOperands_buf (s : State) : s.loadOperands.buf = s.buf := rfl
@[simp] theorem State.loadOperands_bufLen (s : State) : s.loadOperands.bufLen = s.bufLen := rfl
@[simp] theorem State.loadOperands_trace (s : State) : s.loadOperands.trace = s.trace := rfl
@[simp] theorem State.loadOperands_results (s : State) : s.loadOperands.results = s.results := rfl
@[simp] theorem State.loadOperands_card (s : State) : s.loadOperands.card = s.card := rfl
@[simp] theorem State.loadOperands_hostQueue (s : State) : s.loadOperands.hostQueue = s.hostQueue := rfl
@[simp] theorem State.loadOperands_resetIn (s : State) : s.loadOperands.resetIn = s.resetIn := rfl
@[simp] theorem State.loadOperands_par (s : State) : s.loadOperands.par = s.par := rfl

/-! ## State.advanceSector -/

@[simp] theorem State.advanceSector_capacityClass (s : State) : s.advanceSector.capacityClass = s.capacityClass := rfl
@[simp] theorem State.advanceSector_initialized (s : State) : s.advanceSector.initialized = s.initialized := rfl
@[simp] theorem State.advanceSector_sel (s : State) : s.advanceSector.sel = s.sel := rfl
@[simp] theorem State.advanceSector_clk (s : State) : s.advanceSector.clk = s.clk := rfl
@[simp] theorem State.advanceSector_phase (s : State) : s.advanceSector.phase = s.phase := rfl
@[simp] theorem State.advanceSector_ret (s : State) : s.advanceSector.ret = s.ret := rfl
@[simp] theorem State.advanceSector_frame (s : State) : s.advanceSector.frame = s.frame := rfl
@[simp] theorem State.advanceSector_tlen (s : State) : s.advanceSector.tlen = s.tlen := rfl
@[simp] theorem State.advanceSector_r1 (s : State) : s.advanceSector.r1 = s.r1 := rfl
@[simp] theorem State.advanceSector_trail (s : State) : s.advanceSector.trail = s.trail := rfl
@[simp] theorem State.advanceSector_poll (s : State) : s.advanceSector.poll = s.poll := rfl
@[simp] theorem State.advanceSector_retry (s : State) : s.advanceSector.retry = s.retry := rfl
@[simp] theorem State.advanceSector_v2 (s : State) : s.advanceSector.v2 = s.v2 := rfl
@[simp] theorem State.advanceSector_idx (s : State) : s.advanceSector.idx = s.idx := rfl
@[simp] theorem State.advanceSector_sector (s : State) : s.advanceSector.sector = s.sector + 1 := rfl
@[simp] theorem State.advanceSector_remain (s : State) : s.advanceSector.remain = s.remain - 1 := rfl
@[simp] theorem State.advanceSector_offset (s : State) : s.advanceSector.offset = s.offset + Config.blockLen := rfl
@[simp] theorem State.advanceSector_resp (s : State) : s.advanceSector.resp = s.resp := rfl
@[simp] theorem State.advanceSector_err (s : State) : s.advanceSector.err = s.err := rfl
@[simp] theorem State.advanceSector_ser (s : State) : s.advanceSector.ser = s.ser := rfl
@[simp] theorem State.advanceSector_reqOp (s : State) : s.advanceSector.reqOp = s.reqOp := rfl
@[simp] theorem State.advanceSector_reqSector (s : State) : s.advanceSector.reqSector = s.reqSector := rfl
@[simp] theorem State.advanceSector_reqCount (s : State) : s.advanceSector.reqCount = s.reqCount := rfl
@[simp] theorem State.advanceSector_result (s : State) : s.advanceSector.result = s.result := rfl
@[simp] theorem State.advanceSector_buf (s : State) : s.advanceSector.buf = s.buf := rfl
@[simp] theorem State.advanceSector_bufLen (s : State) : s.advanceSector.bufLen = s.bufLen := rfl
@[simp] theorem State.advanceSector_trace (s : State) : s.advanceSector.trace = s.trace := rfl
@[simp] theorem State.advanceSector_results (s : State) : s.advanceSector.results = s.results := rfl
@[simp] theorem State.advanceSector_card (s : State) : s.advanceSector.card = s.card := rfl
@[simp] theorem State.advanceSector_hostQueue (s : State) : s.advanceSector.hostQueue = s.hostQueue := rfl
@[simp] theorem State.advanceSector_resetIn (s : State) : s.advanceSector.resetIn = s.resetIn := rfl
@[simp] theorem State.advanceSector_par (s : State) : s.advanceSector.par = s.par := rfl

/-! ## State.access and State.arrive: what a host access can write -/

/-- An access writes REQ_SECTOR, REQ_COUNT and the buffer, nothing else. -/
theorem State.access_eq (a : HostAccess) (s : State) :
    s.access a = { s with
      reqSector := (s.access a).reqSector, reqCount := (s.access a).reqCount, buf := (s.access a).buf
      bufLen := (s.access a).bufLen } := by
  cases a with
  | write reg value => cases reg <;> rfl
  | bindBuffer bytes => rfl
  | pass => rfl

/-- What arriving writes: the pending accesses and what an access writes. -/
theorem State.arrive_eq (s : State) :
    s.arrive = { s with
      hostQueue := s.arrive.hostQueue, reqSector := s.arrive.reqSector, reqCount := s.arrive.reqCount, buf := s.arrive.buf
      bufLen := s.arrive.bufLen } := by
  unfold State.arrive
  split
  · rfl
  · split
    · rfl
    · rename_i a rest _ _
      cases a with
      | write reg value => cases reg <;> rfl
      | bindBuffer bytes => rfl
      | pass => rfl

/-- With no access pending arriving does nothing. -/
theorem State.arrive_nil (s : State) (h : s.hostQueue = []) : s.arrive = s := by
  simp only [State.arrive, h]

@[simp] theorem State.arrive_capacityClass (s : State) : s.arrive.capacityClass = s.capacityClass := by rw [State.arrive_eq]
@[simp] theorem State.arrive_initialized (s : State) : s.arrive.initialized = s.initialized := by rw [State.arrive_eq]
@[simp] theorem State.arrive_sel (s : State) : s.arrive.sel = s.sel := by rw [State.arrive_eq]
@[simp] theorem State.arrive_clk (s : State) : s.arrive.clk = s.clk := by rw [State.arrive_eq]
@[simp] theorem State.arrive_phase (s : State) : s.arrive.phase = s.phase := by rw [State.arrive_eq]
@[simp] theorem State.arrive_ret (s : State) : s.arrive.ret = s.ret := by rw [State.arrive_eq]
@[simp] theorem State.arrive_frame (s : State) : s.arrive.frame = s.frame := by rw [State.arrive_eq]
@[simp] theorem State.arrive_tlen (s : State) : s.arrive.tlen = s.tlen := by rw [State.arrive_eq]
@[simp] theorem State.arrive_r1 (s : State) : s.arrive.r1 = s.r1 := by rw [State.arrive_eq]
@[simp] theorem State.arrive_trail (s : State) : s.arrive.trail = s.trail := by rw [State.arrive_eq]
@[simp] theorem State.arrive_poll (s : State) : s.arrive.poll = s.poll := by rw [State.arrive_eq]
@[simp] theorem State.arrive_retry (s : State) : s.arrive.retry = s.retry := by rw [State.arrive_eq]
@[simp] theorem State.arrive_v2 (s : State) : s.arrive.v2 = s.v2 := by rw [State.arrive_eq]
@[simp] theorem State.arrive_idx (s : State) : s.arrive.idx = s.idx := by rw [State.arrive_eq]
@[simp] theorem State.arrive_sector (s : State) : s.arrive.sector = s.sector := by rw [State.arrive_eq]
@[simp] theorem State.arrive_remain (s : State) : s.arrive.remain = s.remain := by rw [State.arrive_eq]
@[simp] theorem State.arrive_offset (s : State) : s.arrive.offset = s.offset := by rw [State.arrive_eq]
@[simp] theorem State.arrive_resp (s : State) : s.arrive.resp = s.resp := by rw [State.arrive_eq]
@[simp] theorem State.arrive_err (s : State) : s.arrive.err = s.err := by rw [State.arrive_eq]
@[simp] theorem State.arrive_ser (s : State) : s.arrive.ser = s.ser := by rw [State.arrive_eq]
@[simp] theorem State.arrive_reqOp (s : State) : s.arrive.reqOp = s.reqOp := by rw [State.arrive_eq]
@[simp] theorem State.arrive_result (s : State) : s.arrive.result = s.result := by rw [State.arrive_eq]
@[simp] theorem State.arrive_trace (s : State) : s.arrive.trace = s.trace := by rw [State.arrive_eq]
@[simp] theorem State.arrive_results (s : State) : s.arrive.results = s.results := by rw [State.arrive_eq]
@[simp] theorem State.arrive_card (s : State) : s.arrive.card = s.card := by rw [State.arrive_eq]
@[simp] theorem State.arrive_resetIn (s : State) : s.arrive.resetIn = s.resetIn := by rw [State.arrive_eq]
@[simp] theorem State.arrive_par (s : State) : s.arrive.par = s.par := by rw [State.arrive_eq]
@[simp] theorem State.arrive_draw (s : State) : s.arrive.draw = s.draw := by simp only [State.draw, State.arrive_card]
@[simp] theorem State.arrive_busy (s : State) : s.arrive.busy = s.busy := by simp only [State.busy, State.arrive_phase]

/-- Only a binding writes the buffer. -/
theorem State.access_buffer (a : HostAccess) (s : State) (h : a.needsIdle = false) :
    (s.access a).buf = s.buf ∧ (s.access a).bufLen = s.bufLen := by
  cases a with
  | write reg value => cases reg <;> exact ⟨rfl, rfl⟩
  | bindBuffer bytes => cases h
  | pass => exact ⟨rfl, rfl⟩

/-- A busy block's buffer is not bound anew (R324). -/
theorem State.arrive_buffer (s : State) (h : s.phase ≠ .idle) : s.arrive.buf = s.buf ∧ s.arrive.bufLen = s.bufLen := by
  have hb : s.busy = true := by simp [State.busy, h]
  unfold State.arrive
  split
  · exact ⟨rfl, rfl⟩
  · rename_i a rest _
    rw [hb, Bool.true_and]
    cases ha : a.needsIdle with
    | true => exact ⟨rfl, rfl⟩
    | false => exact State.access_buffer a { s with hostQueue := rest } ha

/-- What arriving writes while the block is busy: the pending accesses and the operand registers (R38). -/
theorem State.arrive_eq_busy (s : State) (h : s.phase ≠ .idle) :
    s.arrive = { s with
      hostQueue := s.arrive.hostQueue, reqSector := s.arrive.reqSector, reqCount := s.arrive.reqCount } := by
  obtain ⟨h1, h2⟩ := s.arrive_buffer h
  have h0 := s.arrive_eq
  rw [h1, h2] at h0
  exact h0

/-- Arriving depends on the pending accesses, the operand registers and whether the block is busy, and on nothing else. -/
theorem State.arrive_congr (s t : State) (hq : t.hostQueue = s.hostQueue) (hs : t.reqSector = s.reqSector)
    (hc : t.reqCount = s.reqCount) (hb : t.busy = s.busy) :
    t.arrive.hostQueue = s.arrive.hostQueue ∧ t.arrive.reqSector = s.arrive.reqSector ∧
      t.arrive.reqCount = s.arrive.reqCount := by
  unfold State.arrive
  rw [hq, hb]
  split
  · exact ⟨hq, hs, hc⟩
  · rename_i a rest h
    split
    · exact ⟨hq.trans h |>.trans h.symm, hs, hc⟩
    · cases a with
      | write reg value => cases reg <;> simp [State.access, hs, hc]
      | bindBuffer bytes => simp [State.access, State.bindBuffer, hs, hc]
      | pass => simp [State.access, hs, hc]

end Sys2Proof.Machine
end

