-- ==== Sys2Proof/Laws/Step.lean ====
section
/-! SUPPORT. One step at each program point, said once: every later proof cites `step_eq` and never unfolds `fetch`. -/

namespace Sys2Proof.Machine

/-! ## What is fetched -/

theorem firstDecoded_frame (f : Frame) (i : Instr) (h : decodeFrame f.index f.argument f.crc = .ok i) :
    firstDecoded [(.cmdFrame, f.bytes)] = some i := by
  simp only [firstDecoded, decode_frame_bytes, h]

/-- The instruction of a call site (R105). -/
def State.callInstr (s : State) : RetPoint → Instr
  | .iCmd0 => .cmd0 s.par.crcCmd0
  | .iCmd8 => .cmd8 s.par.crcCmd8
  | .iLoop55 => .cmd55 s.par.crcOther
  | .iLoop41 => if s.v2 then .acmd41V2 s.par.crcOther else .acmd41Legacy s.par.crcOther
  | .iCmd58 => .cmd58 s.par.crcOther
  | .rCmd17 => .cmd17 (encodeAddress s.capacityClass s.sector) s.par.crcOther
  | .wCmd24 => .cmd24 (encodeAddress s.capacityClass s.sector) s.par.crcOther

theorem firstDecoded_callWord (s : State) (p : RetPoint) : firstDecoded (s.callWord p) = some (s.callInstr p) := by
  apply firstDecoded_frame
  cases p with
  | iLoop41 => cases h : s.v2 <;> simp [State.callFrame, State.callInstr, State.arg41, h] <;> rfl
  | _ => rfl

/-- Running the instruction of a call site enters SendCommand with the operands of the call (R150, R105). -/
theorem exec_callInstr (s t : State) (p : RetPoint) (hp : s.par = t.par) (hv : s.v2 = t.v2)
    (hc : s.capacityClass = t.capacityClass) (hs : s.sector = t.sector) :
    exec (s.callInstr p) t =
      .next (t.sendCommand (t.callFrame p).index (t.callFrame p).argument (t.callFrame p).crc p.tlen p) := by
  cases p with
  | iLoop41 => cases h : t.v2 <;> simp [State.callInstr, State.callFrame, State.arg41, hv, h, hp] <;> rfl
  | _ => simp only [State.callInstr, hp, hc, hs]; rfl

theorem decode_token (f : Format) (b : Byte) (h1 : f ≠ .cmdFrame) (h2 : f ≠ .hostReq) :
    decode f [b] = decodeToken f b := by
  cases f
  case cmdFrame => exact absurd rfl h1
  case hostReq => exact absurd rfl h2
  all_goals rfl

/-! ## One step at each program point -/

/-- The call of SendCommand at a call site, up to its Select (R150, R34). -/
def State.callCommand (p : RetPoint) (s : State) : State :=
  s.sendCommand (s.callFrame p).index (s.callFrame p).argument (s.callFrame p).crc p.tlen p

/-- What a step does at each program point other than IDLE and F_SELECT, the pseudocode read off (R33, R34). -/
def State.pointStep (s : State) : Host.Outcome State Fault Refusal :=
  match s.phase with
  | .idle | .fSelect => .next s
  | .fTx => s.exchangeAndReceive (s.frame.byte s.idx)
  | .fPoll | .fTrail | .iPowerup | .iFinFiller | .rToken | .rData | .rCrc | .rEndFiller | .rErrFiller | .wGap | .wResp
  | .wBusy | .wEndFiller | .wErrFiller => s.exchangeAndReceive Config.filler
  | .wToken => s.exchangeAndReceive Config.startToken
  | .wCrc => s.exchangeAndReceive Config.dummyCrc
  | .wData => s.sendDataByte
  | .iEntry => .next s.initEntry
  | .iCmd0 => .next (s.callCommand .iCmd0)
  | .iCmd8 => .next (s.callCommand .iCmd8)
  | .iLoop55 => .next (s.callCommand .iLoop55)
  | .iLoop41 => .next (s.callCommand .iLoop41)
  | .iCmd58 => .next (s.callCommand .iCmd58)
  | .iFinDeselect => .next { s.deselect with phase := .iFinFiller }
  | .iFinFast => .next s.initReady
  | .rHead => .next (if s.remain = 0 then s.finish .ok else s.callCommand .rCmd17)
  | .wHead => .next (if s.remain = 0 then s.finish .ok else s.callCommand .wCmd24)
  | .rCmd17 => .next (s.callCommand .rCmd17)
  | .wCmd24 => .next (s.callCommand .wCmd24)
  | .rEndDeselect => .next { s.deselect with phase := .rEndFiller }
  | .rErrDeselect => .next { s.deselect with phase := .rErrFiller }
  | .wReselect => .next { s.select with phase := .wToken }
  | .wEndDeselect => .next { s.deselect with phase := .wEndFiller }
  | .wErrDeselect => .next { s.deselect with phase := .wErrFiller }

theorem step_call (s : State) (p : RetPoint) (hr : s.resetIn = false) (hd : s.dueWords = s.callWord p) :
    step s = .next (s.arrive.callCommand p) := by
  unfold step State.fetch
  rw [hd, firstDecoded_callWord, hr]
  simp only [Bool.false_eq_true, if_false]
  exact exec_callInstr s s.arrive p (by simp) (by simp) (by simp) (by simp)

theorem step_none (s : State) (hr : s.resetIn = false) (hd : s.dueWords = []) : step s = s.arrive.control := by
  unfold step State.fetch
  rw [hd, hr]
  rfl

/-- A step at a point whose only word due is a byte sent. -/
theorem step_sent (s : State) (f : Format) (b : Byte) (i : Instr) (hr : s.resetIn = false) (hd : s.dueWords = [(f, [b])])
    (hi : decode f [b] = .ok i) : step s = exec i s.arrive := by
  unfold step State.fetch
  rw [hd, hr]
  simp only [firstDecoded, hi, Bool.false_eq_true, if_false]

theorem decodeToken_fillers (f : Format) (b : Byte) (i : Instr) (h : decodeToken f b = .ok i) :
    (f = .r1Poll ∧ i = .r1Valid b ∧ b &&& 0x80 = 0) ∨ (f = .r1Test ∧ ((i = .r1Idle ∧ b = 0x01) ∨ (i = .r1Ready ∧ b = 0x00))) ∨
    (f = .readToken ∧ i = .startTokenRx ∧ b = 0xFE) ∨ (f = .dataResponse ∧ i = .dataAccepted b ∧ b &&& 0x1F = 0x05) ∨
    (f = .busy ∧ i = .busyByte ∧ b = 0x00) ∨ (f = .r7Byte2 ∧ i = .echoVolt ∧ b = 0x01) ∨
    (f = .r7Byte3 ∧ i = .echoPattern ∧ b = 0xAA) ∨ (f = .ocrByte0 ∧ i = .ocrCcs b ∧ b &&& 0x40 = 0x40) ∨
    (f = .tx ∧ ((i = .filler ∧ b = 0xFF) ∨ (i = .startTokenTx ∧ b = 0xFE))) ∨ (f = .txCrc ∧ i = .dummyCrc ∧ b = 0xFF) := by
  cases f <;> simp only [decodeToken] at h <;> (repeat' split at h) <;> simp_all

/-- A step at a point that sends FILLER: whichever reading of the exchange is fetched, the step is the exchange. -/
theorem step_filler (s : State) (fs : List Format) (hr : s.resetIn = false) (hd : s.dueWords = s.receiveWords fs)
    (hf : ∀ f ∈ fs, ∀ i, decode f [s.draw] = .ok i → exec i s.arrive = s.arrive.exchangeAndReceive Config.filler) :
    step s = s.arrive.exchangeAndReceive Config.filler := by
  unfold step State.fetch
  rw [hd, hr]
  simp only [Bool.false_eq_true, if_false, State.receiveWords]
  clear hd
  induction fs with
  | nil => rfl
  | cons f fs ih =>
    simp only [List.map_cons, List.cons_append, firstDecoded]
    cases h : decode f [s.draw] with
    | ok i => exact hf f (by simp) i h
    | error e => exact ih fun g hg i hi => hf g (by simp [hg]) i hi

/-- One step, at every program point of an operation: the host's access, then the point's own step. -/
theorem step_eq (s : State) (hr : s.resetIn = false) (hi : s.phase ≠ .idle) (hf : s.phase ≠ .fSelect) :
    step s = s.arrive.pointStep := by
  unfold State.pointStep
  rw [State.arrive_phase]
  cases hp : s.phase
  case idle => contradiction
  case fSelect => contradiction
  case fTx => simp only []; rw [step_none s hr (by simp [State.dueWords, hp])]; simp [State.control, hp]
  case wData => simp only []; rw [step_none s hr (by simp [State.dueWords, hp])]; simp [State.control, hp]
  case iEntry => simp only []; rw [step_none s hr (by simp [State.dueWords, hp])]; simp [State.control, hp]
  case iFinDeselect => simp only []; rw [step_none s hr (by simp [State.dueWords, hp])]; simp [State.control, hp]
  case iFinFast => simp only []; rw [step_none s hr (by simp [State.dueWords, hp])]; simp [State.control, hp]
  case rEndDeselect => simp only []; rw [step_none s hr (by simp [State.dueWords, hp])]; simp [State.control, hp]
  case rErrDeselect => simp only []; rw [step_none s hr (by simp [State.dueWords, hp])]; simp [State.control, hp]
  case wReselect => simp only []; rw [step_none s hr (by simp [State.dueWords, hp])]; simp [State.control, hp]
  case wEndDeselect => simp only []; rw [step_none s hr (by simp [State.dueWords, hp])]; simp [State.control, hp]
  case wErrDeselect => simp only []; rw [step_none s hr (by simp [State.dueWords, hp])]; simp [State.control, hp]
  case iCmd0 => exact step_call s _ hr (by simp [State.dueWords, hp])
  case iCmd8 => exact step_call s _ hr (by simp [State.dueWords, hp])
  case iLoop55 => exact step_call s _ hr (by simp [State.dueWords, hp])
  case iLoop41 => exact step_call s _ hr (by simp [State.dueWords, hp])
  case iCmd58 => exact step_call s _ hr (by simp [State.dueWords, hp])
  case rCmd17 => exact step_call s _ hr (by simp [State.dueWords, hp])
  case wCmd24 => exact step_call s _ hr (by simp [State.dueWords, hp])
  case rHead =>
    by_cases h0 : s.remain = 0
    · rw [step_none s hr (by simp [State.dueWords, hp, h0])]; simp [State.control, hp, h0]
    · rw [step_call s .rCmd17 hr (by simp only [State.dueWords, hp, if_neg h0])]
      simp only [State.arrive_remain, if_neg h0]
  case wHead =>
    by_cases h0 : s.remain = 0
    · rw [step_none s hr (by simp [State.dueWords, hp, h0])]; simp [State.control, hp, h0]
    · rw [step_call s .wCmd24 hr (by simp only [State.dueWords, hp, if_neg h0])]
      simp only [State.arrive_remain, if_neg h0]
  case wToken =>
    rw [step_sent s .tx 0xFE .startTokenTx hr (by simp [State.dueWords, hp]) rfl]
    simp [exec, execStartTokenTx, State.exchangeAndReceive, State.receive, State.exchange, hp]
  case wCrc =>
    rw [step_sent s .txCrc 0xFF .dummyCrc hr (by simp [State.dueWords, hp]) rfl]
    simp [exec, execDummyCrc, State.exchangeAndReceive, State.receive, State.exchange, hp]
  case fPoll =>
    refine step_filler s [.r1Test, .r1Poll] hr (by simp [State.dueWords, hp]) ?_
    intro f hf' i hi'
    have hx : ∀ b, s.draw = b → Host.Outcome.next ((s.arrive.exchangeWith Config.filler b).pollR1 b) =
        s.arrive.exchangeAndReceive Config.filler := by
      rintro b rfl; simp [State.exchangeAndReceive, State.receive, State.exchange, hp]
    simp only [List.mem_cons, List.not_mem_nil, or_false] at hf'
    rcases hf' with rfl | rfl <;> rw [decode_token _ _ (by simp) (by simp)] at hi' <;>
      rcases decodeToken_fillers _ _ _ hi' with h | h | h | h | h | h | h | h | h | h <;> simp at h
    · rcases h with ⟨rfl, h⟩ | ⟨rfl, h⟩ <;> exact hx _ h
    · obtain ⟨rfl, h⟩ := h; exact hx _ rfl
  case fTrail =>
    refine step_filler s s.trailFormats hr (by simp [State.dueWords, hp]) ?_
    intro f hf' i hi'
    have hx : ∀ j b, s.idx = j → s.draw = b → Host.Outcome.next ((s.arrive.exchangeWith Config.filler b).storeTrail j b) =
        s.arrive.exchangeAndReceive Config.filler := by
      rintro j b rfl rfl; simp [State.exchangeAndReceive, State.receive, State.exchange, hp]
    unfold State.trailFormats at hf'
    split at hf' <;> simp only [List.mem_cons, List.not_mem_nil, or_false] at hf'
    all_goals
      rename_i hj
      subst hf'
      rw [decode_token _ _ (by simp) (by simp)] at hi'
      rcases decodeToken_fillers _ _ _ hi' with h | h | h | h | h | h | h | h | h | h <;> simp at h
    · obtain ⟨rfl, h⟩ := h; exact hx _ _ hj h
    · obtain ⟨rfl, h⟩ := h; exact hx _ _ hj h
    · obtain ⟨rfl, h⟩ := h; exact hx _ _ hj rfl
  case rToken =>
    refine step_filler s [.readToken] hr (by simp [State.dueWords, hp]) ?_
    intro f hf' i hi'
    simp only [List.mem_cons, List.not_mem_nil, or_false] at hf'
    subst hf'
    rw [decode_token _ _ (by simp) (by simp)] at hi'
    rcases decodeToken_fillers _ _ _ hi' with h | h | h | h | h | h | h | h | h | h <;> simp at h
    obtain ⟨rfl, h⟩ := h
    simp [exec, execStartTokenRx, State.exchangeAndReceive, State.receive, State.exchange, hp, h]
  case wResp =>
    refine step_filler s [.dataResponse] hr (by simp [State.dueWords, hp]) ?_
    intro f hf' i hi'
    simp only [List.mem_cons, List.not_mem_nil, or_false] at hf'
    subst hf'
    rw [decode_token _ _ (by simp) (by simp)] at hi'
    rcases decodeToken_fillers _ _ _ hi' with h | h | h | h | h | h | h | h | h | h <;> simp at h
    obtain ⟨rfl, h⟩ := h
    simp [exec, execDataAccepted, State.exchangeAndReceive, State.receive, State.exchange, hp]
  case wBusy =>
    refine step_filler s [.busy] hr (by simp [State.dueWords, hp]) ?_
    intro f hf' i hi'
    simp only [List.mem_cons, List.not_mem_nil, or_false] at hf'
    subst hf'
    rw [decode_token _ _ (by simp) (by simp)] at hi'
    rcases decodeToken_fillers _ _ _ hi' with h | h | h | h | h | h | h | h | h | h <;> simp at h
    obtain ⟨rfl, h⟩ := h
    simp [exec, execBusyByte, State.exchangeAndReceive, State.receive, State.exchange, hp, h]
  all_goals exact step_filler s [] hr (by simp [State.dueWords, hp]) (by simp)

/-- The step at IDLE with a write of REQ_OP pending (R36, R38): the operation of the value written, if there is one. -/
theorem step_idle_request (s : State) (v : Word32) (q : List HostAccess) (hr : s.resetIn = false) (hp : s.phase = .idle)
    (hq : s.hostQueue = .write .reqOp v :: q) :
    step s = match decodeRequest (v.extractLsb' 0 2) s.reqSector s.reqCount with
      | .ok i => exec i { s with hostQueue := q }
      | .error _ => .next { s with hostQueue := q } := by
  have hb : s.busy = false := by simp [State.busy, hp]
  have ha : s.arrive = { s with hostQueue := q } := by simp [State.arrive, hq, hb, State.access]
  have hd : s.dueWords = [(.hostReq, requestBytes (v.extractLsb' 0 2) s.reqSector s.reqCount)] := by
    simp only [State.dueWords, hp, hq]
  rw [← ha]
  unfold step State.fetch
  rw [hr, hd]
  simp only [Bool.false_eq_true, if_false, firstDecoded, decode_request_bytes]
  cases decodeRequest (v.extractLsb' 0 2) s.reqSector s.reqCount with
  | ok i => rfl
  | error e => simp only [State.control, State.arrive_phase, hp]

/-- The step at IDLE with another access pending, or none: the access is all of it (R38, R60, R310). -/
theorem step_idle_access (s : State) (hr : s.resetIn = false) (hp : s.phase = .idle)
    (hq : ∀ v q, s.hostQueue ≠ .write .reqOp v :: q) : step s = .next s.arrive := by
  have hd : s.dueWords = [] := by
    simp only [State.dueWords, hp]
  rw [step_none s hr hd]
  simp only [State.control, State.arrive_phase, hp]

/-- F_SELECT with the operands held is the entry of SendCommand. -/
theorem State.enterFramer_eq (s : State) :
    s.enterFramer = s.sendCommand s.frame.index s.frame.argument s.frame.crc s.tlen s.ret := rfl

/-- The step at F_SELECT (R108, R150): the framer is entered with FRAME; TLEN and RET are the row's where FRAME is a row of the
table, else the ones held. -/
theorem step_fSelect (f : Frame) :
    (∃ (tlen : Fin 5) (ret : RetPoint), ∀ s : State, s.resetIn = false → s.phase = .fSelect → s.frame = f →
      step s = .next (s.arrive.sendCommand f.index f.argument f.crc tlen ret)) ∨
    ∀ s : State, s.resetIn = false → s.phase = .fSelect → s.frame = f →
      step s = .next (s.arrive.sendCommand f.index f.argument f.crc s.tlen s.ret) := by
  have hx : ∀ s : State, s.resetIn = false → s.phase = .fSelect → s.frame = f →
      step s = match decodeFrame f.index f.argument f.crc with
        | .ok i => exec i s.arrive
        | .error _ => .next (s.arrive.sendCommand f.index f.argument f.crc s.tlen s.ret) := by
    intro s hr hp hf
    unfold step State.fetch
    rw [hr]
    simp only [State.dueWords, hp, Bool.false_eq_true, if_false, firstDecoded, decode_frame_bytes, hf]
    cases decodeFrame f.index f.argument f.crc with
    | ok i => rfl
    | error e =>
      subst hf
      simp only [State.control, State.arrive_phase, hp, State.enterFramer_eq, State.arrive_frame, State.arrive_tlen,
        State.arrive_ret]
  cases hd : decodeFrame f.index f.argument f.crc with
  | error e => right; intro s hr hp hf; rw [hx s hr hp hf, hd]
  | ok i =>
    left
    simp only [hd] at hx
    unfold decodeFrame at hd
    repeat' split at hd
    all_goals
      first
      | (cases hd; done)
      | (injection hd with hd
         subst hd
         obtain ⟨ix, arg, crc⟩ := f
         simp only at *
         subst_vars
         exact ⟨_, _, fun s hr hp hf => (hx s hr hp hf).trans rfl⟩)

end Sys2Proof.Machine
end

