-- ==== Sys2Proof/Laws/Point.lean ====
section
/-! SUPPORT. The step at each program point of an operation, by name: what later proofs rewrite with. -/

namespace Sys2Proof.Machine

theorem step_at_fTx (s : State) (hr : s.resetIn = false) (hp : s.phase = .fTx) :
    step s = .next (s.arrive.exchangeWith (s.frame.byte s.idx) s.draw).afterFrameByte := by
  rw [step_eq s hr (by simp [hp]) (by simp [hp])]
  simp only [State.pointStep, State.exchangeAndReceive, State.receive, State.exchange, State.exchangeWith_phase,
    State.arrive_phase, State.arrive_draw, State.arrive_frame, State.arrive_idx, hp]

theorem step_at_fPoll (s : State) (hr : s.resetIn = false) (hp : s.phase = .fPoll) :
    step s = .next ((s.arrive.exchangeWith Config.filler s.draw).pollR1 s.draw) := by
  rw [step_eq s hr (by simp [hp]) (by simp [hp])]
  simp only [State.pointStep, State.exchangeAndReceive, State.receive, State.exchange, State.exchangeWith_phase,
    State.arrive_phase, State.arrive_draw, hp]

theorem step_at_fTrail (s : State) (hr : s.resetIn = false) (hp : s.phase = .fTrail) :
    step s = .next ((s.arrive.exchangeWith Config.filler s.draw).storeTrail s.idx s.draw) := by
  rw [step_eq s hr (by simp [hp]) (by simp [hp])]
  simp only [State.pointStep, State.exchangeAndReceive, State.receive, State.exchange, State.exchangeWith_phase, State.exchangeWith_idx,
    State.arrive_phase, State.arrive_draw, State.arrive_idx, hp]

theorem step_at_iEntry (s : State) (hr : s.resetIn = false) (hp : s.phase = .iEntry) :
    step s = .next s.arrive.initEntry := by
  rw [step_eq s hr (by simp [hp]) (by simp [hp])]
  simp only [State.pointStep, State.arrive_phase, hp]

theorem step_at_iPowerup (s : State) (hr : s.resetIn = false) (hp : s.phase = .iPowerup) :
    step s = .next (s.arrive.exchangeWith Config.filler s.draw).afterPowerup := by
  rw [step_eq s hr (by simp [hp]) (by simp [hp])]
  simp only [State.pointStep, State.exchangeAndReceive, State.receive, State.exchange, State.exchangeWith_phase,
    State.arrive_phase, State.arrive_draw, hp]

theorem step_at_iCmd0 (s : State) (hr : s.resetIn = false) (hp : s.phase = .iCmd0) :
    step s = .next (s.arrive.callCommand .iCmd0) := by
  rw [step_eq s hr (by simp [hp]) (by simp [hp])]
  simp only [State.pointStep, State.arrive_phase, hp]

theorem step_at_iCmd8 (s : State) (hr : s.resetIn = false) (hp : s.phase = .iCmd8) :
    step s = .next (s.arrive.callCommand .iCmd8) := by
  rw [step_eq s hr (by simp [hp]) (by simp [hp])]
  simp only [State.pointStep, State.arrive_phase, hp]

theorem step_at_iLoop55 (s : State) (hr : s.resetIn = false) (hp : s.phase = .iLoop55) :
    step s = .next (s.arrive.callCommand .iLoop55) := by
  rw [step_eq s hr (by simp [hp]) (by simp [hp])]
  simp only [State.pointStep, State.arrive_phase, hp]

theorem step_at_iLoop41 (s : State) (hr : s.resetIn = false) (hp : s.phase = .iLoop41) :
    step s = .next (s.arrive.callCommand .iLoop41) := by
  rw [step_eq s hr (by simp [hp]) (by simp [hp])]
  simp only [State.pointStep, State.arrive_phase, hp]

theorem step_at_iCmd58 (s : State) (hr : s.resetIn = false) (hp : s.phase = .iCmd58) :
    step s = .next (s.arrive.callCommand .iCmd58) := by
  rw [step_eq s hr (by simp [hp]) (by simp [hp])]
  simp only [State.pointStep, State.arrive_phase, hp]

theorem step_at_rCmd17 (s : State) (hr : s.resetIn = false) (hp : s.phase = .rCmd17) :
    step s = .next (s.arrive.callCommand .rCmd17) := by
  rw [step_eq s hr (by simp [hp]) (by simp [hp])]
  simp only [State.pointStep, State.arrive_phase, hp]

theorem step_at_wCmd24 (s : State) (hr : s.resetIn = false) (hp : s.phase = .wCmd24) :
    step s = .next (s.arrive.callCommand .wCmd24) := by
  rw [step_eq s hr (by simp [hp]) (by simp [hp])]
  simp only [State.pointStep, State.arrive_phase, hp]

theorem step_at_iFinDeselect (s : State) (hr : s.resetIn = false) (hp : s.phase = .iFinDeselect) :
    step s = .next { s.arrive.deselect with phase := .iFinFiller } := by
  rw [step_eq s hr (by simp [hp]) (by simp [hp])]
  simp only [State.pointStep, State.arrive_phase, hp]

theorem step_at_iFinFiller (s : State) (hr : s.resetIn = false) (hp : s.phase = .iFinFiller) :
    step s = .next { s.arrive.exchangeWith Config.filler s.draw with phase := .iFinFast } := by
  rw [step_eq s hr (by simp [hp]) (by simp [hp])]
  simp only [State.pointStep, State.exchangeAndReceive, State.receive, State.exchange, State.exchangeWith_phase,
    State.arrive_phase, State.arrive_draw, hp]

theorem step_at_iFinFast (s : State) (hr : s.resetIn = false) (hp : s.phase = .iFinFast) :
    step s = .next s.arrive.initReady := by
  rw [step_eq s hr (by simp [hp]) (by simp [hp])]
  simp only [State.pointStep, State.arrive_phase, hp]

theorem step_at_rHead (s : State) (hr : s.resetIn = false) (hp : s.phase = .rHead) :
    step s = .next (if s.remain = 0 then s.arrive.finish .ok else s.arrive.callCommand .rCmd17) := by
  rw [step_eq s hr (by simp [hp]) (by simp [hp])]
  simp only [State.pointStep, State.arrive_phase, State.arrive_remain, hp]

theorem step_at_rToken (s : State) (hr : s.resetIn = false) (hp : s.phase = .rToken) :
    step s = .next ((s.arrive.exchangeWith Config.filler s.draw).pollToken s.draw) := by
  rw [step_eq s hr (by simp [hp]) (by simp [hp])]
  simp only [State.pointStep, State.exchangeAndReceive, State.receive, State.exchange, State.exchangeWith_phase,
    State.arrive_phase, State.arrive_draw, hp]

theorem step_at_rCrc (s : State) (hr : s.resetIn = false) (hp : s.phase = .rCrc) :
    step s = .next (s.arrive.exchangeWith Config.filler s.draw).afterReadCrc := by
  rw [step_eq s hr (by simp [hp]) (by simp [hp])]
  simp only [State.pointStep, State.exchangeAndReceive, State.receive, State.exchange, State.exchangeWith_phase,
    State.arrive_phase, State.arrive_draw, hp]

theorem step_at_rEndDeselect (s : State) (hr : s.resetIn = false) (hp : s.phase = .rEndDeselect) :
    step s = .next { s.arrive.deselect with phase := .rEndFiller } := by
  rw [step_eq s hr (by simp [hp]) (by simp [hp])]
  simp only [State.pointStep, State.arrive_phase, hp]

theorem step_at_rEndFiller (s : State) (hr : s.resetIn = false) (hp : s.phase = .rEndFiller) :
    step s = .next ((s.arrive.exchangeWith Config.filler s.draw).advanceSector.nextSector .read) := by
  rw [step_eq s hr (by simp [hp]) (by simp [hp])]
  simp only [State.pointStep, State.exchangeAndReceive, State.receive, State.exchange, State.exchangeWith_phase,
    State.arrive_phase, State.arrive_draw, hp]

theorem step_at_rErrDeselect (s : State) (hr : s.resetIn = false) (hp : s.phase = .rErrDeselect) :
    step s = .next { s.arrive.deselect with phase := .rErrFiller } := by
  rw [step_eq s hr (by simp [hp]) (by simp [hp])]
  simp only [State.pointStep, State.arrive_phase, hp]

theorem step_at_rErrFiller (s : State) (hr : s.resetIn = false) (hp : s.phase = .rErrFiller) :
    step s = .next (s.arrive.exchangeWith Config.filler s.draw).returnError := by
  rw [step_eq s hr (by simp [hp]) (by simp [hp])]
  simp only [State.pointStep, State.exchangeAndReceive, State.receive, State.exchange, State.exchangeWith_phase,
    State.arrive_phase, State.arrive_draw, hp]

theorem step_at_wHead (s : State) (hr : s.resetIn = false) (hp : s.phase = .wHead) :
    step s = .next (if s.remain = 0 then s.arrive.finish .ok else s.arrive.callCommand .wCmd24) := by
  rw [step_eq s hr (by simp [hp]) (by simp [hp])]
  simp only [State.pointStep, State.arrive_phase, State.arrive_remain, hp]

theorem step_at_wGap (s : State) (hr : s.resetIn = false) (hp : s.phase = .wGap) :
    step s = .next { s.arrive.exchangeWith Config.filler s.draw with phase := .wReselect } := by
  rw [step_eq s hr (by simp [hp]) (by simp [hp])]
  simp only [State.pointStep, State.exchangeAndReceive, State.receive, State.exchange, State.exchangeWith_phase,
    State.arrive_phase, State.arrive_draw, hp]

theorem step_at_wReselect (s : State) (hr : s.resetIn = false) (hp : s.phase = .wReselect) :
    step s = .next { s.arrive.select with phase := .wToken } := by
  rw [step_eq s hr (by simp [hp]) (by simp [hp])]
  simp only [State.pointStep, State.arrive_phase, hp]

theorem step_at_wToken (s : State) (hr : s.resetIn = false) (hp : s.phase = .wToken) :
    step s = .next (s.arrive.exchangeWith Config.startToken s.draw).afterStartToken := by
  rw [step_eq s hr (by simp [hp]) (by simp [hp])]
  simp only [State.pointStep, State.exchangeAndReceive, State.receive, State.exchange, State.exchangeWith_phase,
    State.arrive_phase, State.arrive_draw, hp]

theorem step_at_wCrc (s : State) (hr : s.resetIn = false) (hp : s.phase = .wCrc) :
    step s = .next (s.arrive.exchangeWith Config.dummyCrc s.draw).afterWriteCrc := by
  rw [step_eq s hr (by simp [hp]) (by simp [hp])]
  simp only [State.pointStep, State.exchangeAndReceive, State.receive, State.exchange, State.exchangeWith_phase,
    State.arrive_phase, State.arrive_draw, hp]

theorem step_at_wResp (s : State) (hr : s.resetIn = false) (hp : s.phase = .wResp) :
    step s = .next ((s.arrive.exchangeWith Config.filler s.draw).judgeResponse s.draw) := by
  rw [step_eq s hr (by simp [hp]) (by simp [hp])]
  simp only [State.pointStep, State.exchangeAndReceive, State.receive, State.exchange, State.exchangeWith_phase,
    State.arrive_phase, State.arrive_draw, hp]

theorem step_at_wBusy (s : State) (hr : s.resetIn = false) (hp : s.phase = .wBusy) :
    step s = .next ((s.arrive.exchangeWith Config.filler s.draw).busyWait s.draw) := by
  rw [step_eq s hr (by simp [hp]) (by simp [hp])]
  simp only [State.pointStep, State.exchangeAndReceive, State.receive, State.exchange, State.exchangeWith_phase,
    State.arrive_phase, State.arrive_draw, hp]

theorem step_at_wEndDeselect (s : State) (hr : s.resetIn = false) (hp : s.phase = .wEndDeselect) :
    step s = .next { s.arrive.deselect with phase := .wEndFiller } := by
  rw [step_eq s hr (by simp [hp]) (by simp [hp])]
  simp only [State.pointStep, State.arrive_phase, hp]

theorem step_at_wEndFiller (s : State) (hr : s.resetIn = false) (hp : s.phase = .wEndFiller) :
    step s = .next ((s.arrive.exchangeWith Config.filler s.draw).advanceSector.nextSector .write) := by
  rw [step_eq s hr (by simp [hp]) (by simp [hp])]
  simp only [State.pointStep, State.exchangeAndReceive, State.receive, State.exchange, State.exchangeWith_phase,
    State.arrive_phase, State.arrive_draw, hp]

theorem step_at_wErrDeselect (s : State) (hr : s.resetIn = false) (hp : s.phase = .wErrDeselect) :
    step s = .next { s.arrive.deselect with phase := .wErrFiller } := by
  rw [step_eq s hr (by simp [hp]) (by simp [hp])]
  simp only [State.pointStep, State.arrive_phase, hp]

theorem step_at_wErrFiller (s : State) (hr : s.resetIn = false) (hp : s.phase = .wErrFiller) :
    step s = .next (s.arrive.exchangeWith Config.filler s.draw).returnError := by
  rw [step_eq s hr (by simp [hp]) (by simp [hp])]
  simp only [State.pointStep, State.exchangeAndReceive, State.receive, State.exchange, State.exchangeWith_phase,
    State.arrive_phase, State.arrive_draw, hp]

/-- R_DATA(j) within the bound buffer (R62, R235). -/
theorem step_at_rData (s : State) (hr : s.resetIn = false) (hp : s.phase = .rData) (hb : s.offset + s.idx < s.bufLen) :
    step s = .next
      ({ s.arrive.exchangeWith Config.filler s.draw with buf := s.buf.write (s.offset + s.idx) s.draw } : State).afterReadByte := by
  obtain ⟨hbuf, hlen⟩ := s.arrive_buffer (by simp [hp])
  rw [step_eq s hr (by simp [hp]) (by simp [hp])]
  simp only [State.pointStep, State.exchangeAndReceive, State.receive, State.exchange, State.exchangeWith_phase,
    State.arrive_phase, State.arrive_draw, hp, State.bufWrite, State.exchangeWith_offset, State.exchangeWith_idx,
    State.exchangeWith_bufLen, State.exchangeWith_buf, State.arrive_offset, State.arrive_idx, hlen, hbuf, hb, if_true]

/-- R_DATA(j) outside the bound buffer (U7; assumption 6). -/
theorem step_at_rData_outside (s : State) (hr : s.resetIn = false) (hp : s.phase = .rData)
    (hb : ¬ s.offset + s.idx < s.bufLen) : step s = .fault .bufferOutOfRange := by
  obtain ⟨hbuf, hlen⟩ := s.arrive_buffer (by simp [hp])
  rw [step_eq s hr (by simp [hp]) (by simp [hp])]
  simp only [State.pointStep, State.exchangeAndReceive, State.receive, State.exchange, State.exchangeWith_phase,
    State.arrive_phase, State.arrive_draw, hp, State.bufWrite, State.exchangeWith_offset, State.exchangeWith_idx,
    State.exchangeWith_bufLen, State.arrive_offset, State.arrive_idx, hlen, hb, if_false]

/-- W_DATA(j) within the bound buffer (R61, R243). -/
theorem step_at_wData (s : State) (hr : s.resetIn = false) (hp : s.phase = .wData) (hb : s.offset + s.idx < s.bufLen) :
    step s = .next (s.arrive.exchangeWith (s.buf.read (s.offset + s.idx)) s.draw).afterWriteByte := by
  obtain ⟨hbuf, hlen⟩ := s.arrive_buffer (by simp [hp])
  rw [step_eq s hr (by simp [hp]) (by simp [hp])]
  simp only [State.pointStep, State.arrive_phase, State.arrive_draw, State.sendDataByte, State.exchangeAndReceive,
    State.receive, State.exchange, State.exchangeWith_phase, hp, State.bufRead, hbuf, State.arrive_offset, State.arrive_idx, hlen, hb, if_true]

/-- W_DATA(j) outside the bound buffer (U7; assumption 6). -/
theorem step_at_wData_outside (s : State) (hr : s.resetIn = false) (hp : s.phase = .wData)
    (hb : ¬ s.offset + s.idx < s.bufLen) : step s = .fault .bufferOutOfRange := by
  obtain ⟨hbuf, hlen⟩ := s.arrive_buffer (by simp [hp])
  rw [step_eq s hr (by simp [hp]) (by simp [hp])]
  simp only [State.pointStep, State.arrive_phase, State.sendDataByte, hp, State.bufRead, hbuf, State.arrive_offset, State.arrive_idx, hlen, hb, if_false]

/-! ## What the caller's continuation can do -/

/-- `continue at RET` (R35) writes the program point, the result and the registers of the caller: V2, RETRY, POLL, E and the
capacity class; nothing else. -/
theorem State.resume_frame (s : State) :
    s.resume =
      { s with
        phase := s.resume.phase, result := s.resume.result, results := s.resume.results, v2 := s.resume.v2
        retry := s.resume.retry, poll := s.resume.poll, err := s.resume.err, capacityClass := s.resume.capacityClass } := by
  unfold State.resume
  split <;>
    simp only [State.afterCmd0, State.afterCmd8, State.afterCmd55, State.afterCmd41, State.afterCmd58, State.afterCmd17,
      State.afterCmd24, State.leaveLoop, State.takeError, State.finish] <;>
    (repeat' split) <;> rfl

/-- Only CMD41 and CMD58 of INIT write the capacity class (R188, R190). -/
theorem State.resume_capacityClass (s : State) (h1 : s.ret ≠ .iLoop41) (h2 : s.ret ≠ .iCmd58) :
    s.resume.capacityClass = s.capacityClass := by
  unfold State.resume
  cases h : s.ret <;>
    simp only [State.afterCmd0, State.afterCmd8, State.afterCmd55, State.afterCmd17, State.afterCmd24, State.takeError,
      State.finish] <;>
    (repeat' split) <;> first | rfl | contradiction

/-- The end of a trailing exchange: one byte of TRAIL, IDX, and what the caller's continuation writes. -/
theorem State.storeTrail_frame (j : Nat) (rx : Byte) (s : State) :
    s.storeTrail j rx =
      if j + 1 < s.tlen.val then { s with trail := s.trail.set j rx, idx := j + 1, phase := .fTrail }
      else ({ s with trail := s.trail.set j rx, idx := j + 1 } : State).resume := rfl

theorem Trail.get_set (t : Trail) (j k : Nat) (v : Byte) (hj : j < 4) (hk : k < 4) :
    (t.set j v).get k = if k = j then v else t.get k := by
  interval_cases j <;> interval_cases k <;> rfl

/-- What `receive` can do at any point, said once: the lines, the frame operands, the request, the trace, the environment and
the parameters stay; the buffer stays but at R_DATA(j), where it is the one byte stored. -/
structure State.ReceiveFrame (s t : State) : Prop where
  sel : t.sel = s.sel
  clk : t.clk = s.clk
  initialized : t.initialized = s.initialized
  ret : t.ret = s.ret
  frame : t.frame = s.frame
  tlen : t.tlen = s.tlen
  ser : t.ser = s.ser
  reqOp : t.reqOp = s.reqOp
  reqSector : t.reqSector = s.reqSector
  reqCount : t.reqCount = s.reqCount
  bufLen : t.bufLen = s.bufLen
  trace : t.trace = s.trace
  card : t.card = s.card
  hostQueue : t.hostQueue = s.hostQueue
  resetIn : t.resetIn = s.resetIn
  par : t.par = s.par
  buf : s.phase ≠ .rData → t.buf = s.buf

theorem State.resume_receiveFrame (s : State) : s.ReceiveFrame s.resume := by
  rw [State.resume_frame]
  exact ⟨rfl, rfl, rfl, rfl, rfl, rfl, rfl, rfl, rfl, rfl, rfl, rfl, rfl, rfl, rfl, rfl, fun _ => rfl⟩

theorem State.receive_frame (rx : Byte) (s t : State) (h : s.receive rx = .next t) : s.ReceiveFrame t := by
  unfold State.receive at h
  cases hp : s.phase <;> simp only [hp] at h
  case rData =>
    unfold State.bufWrite at h
    split at h
    · rename_i u hu
      split at hu
      · injection hu with hu; subst hu; injection h with h; subst h
        unfold State.afterReadByte
        dsimp only
        split <;> exact ⟨rfl, rfl, rfl, rfl, rfl, rfl, rfl, rfl, rfl, rfl, rfl, rfl, rfl, rfl, rfl, rfl, fun g => absurd hp g⟩
      · cases hu
    · cases h
  case fPoll =>
    injection h with h; subst h
    unfold State.pollR1 State.endPoll
    dsimp only
    split
    · split
      · exact ⟨rfl, rfl, rfl, rfl, rfl, rfl, rfl, rfl, rfl, rfl, rfl, rfl, rfl, rfl, rfl, rfl, fun _ => rfl⟩
      · obtain ⟨h1, h2, h3, h4, h5, h6, h7, h8, h9, h10, h11, h12, h13, h14, h15, h16, h17⟩ :=
          State.resume_receiveFrame { s with poll := s.poll + 1, r1 := rx, idx := 0 }
        exact ⟨h1, h2, h3, h4, h5, h6, h7, h8, h9, h10, h11, h12, h13, h14, h15, h16, fun _ => h17 (by simp [hp])⟩
    · exact ⟨rfl, rfl, rfl, rfl, rfl, rfl, rfl, rfl, rfl, rfl, rfl, rfl, rfl, rfl, rfl, rfl, fun _ => rfl⟩
  case fTrail =>
    injection h with h; subst h
    rw [State.storeTrail_frame]
    split
    · exact ⟨rfl, rfl, rfl, rfl, rfl, rfl, rfl, rfl, rfl, rfl, rfl, rfl, rfl, rfl, rfl, rfl, fun _ => rfl⟩
    · obtain ⟨h1, h2, h3, h4, h5, h6, h7, h8, h9, h10, h11, h12, h13, h14, h15, h16, h17⟩ :=
        State.resume_receiveFrame { s with trail := s.trail.set s.idx rx, idx := s.idx + 1 }
      exact ⟨h1, h2, h3, h4, h5, h6, h7, h8, h9, h10, h11, h12, h13, h14, h15, h16, fun _ => h17 (by simp [hp])⟩
  all_goals
    injection h with h
    subst h
    try unfold State.afterFrameByte
    try unfold State.afterPowerup
    try unfold State.pollToken
    try unfold State.afterReadCrc
    try unfold State.nextSector
    try unfold State.returnError
    try unfold State.afterStartToken
    try unfold State.afterWriteByte
    try unfold State.afterWriteCrc
    try unfold State.judgeResponse
    try unfold State.enterBusy
    try unfold State.busyWait
    try dsimp only
    repeat' split
    all_goals exact ⟨rfl, rfl, rfl, rfl, rfl, rfl, rfl, rfl, rfl, rfl, rfl, rfl, rfl, rfl, rfl, rfl, fun _ => rfl⟩

end Sys2Proof.Machine
end

