-- ==== Sys2Proof/Laws/Run.lean ====
section
/-! SUPPORT. Runs: how they compose, and that they are the host's. -/

namespace Sys2Proof.Machine

theorem run_zero (s : State) : run 0 s = .next s := rfl

/-- A run begins with its first step. -/
theorem run_succ {s t : State} (n : Nat) (h : step s = .next t) : run (n + 1) s = run n t := by
  simp only [run, h]

theorem run_one (s : State) : run 1 s = step s := by
  cases h : step s <;> simp only [run, h]

/-- A run continues where a shorter one stands. -/
theorem run_add {s t : State} (m n : Nat) (h : run m s = .next t) : run (m + n) s = run n t := by
  induction m generalizing s with
  | zero =>
    rw [run_zero, Host.Outcome.next.injEq] at h
    rw [h, Nat.zero_add]
  | succ m ih =>
    rw [Nat.succ_add]
    cases hs : step s with
    | next u => rw [run_succ m hs] at h; rw [run_succ _ hs]; exact ih h
    | fault f => simp only [run, hs] at h; cases h
    | refused r => simp only [run, hs] at h; cases h

/-- A run and one step more. -/
theorem run_snoc {s t : State} (m : Nat) (h : run m s = .next t) : run (m + 1) s = step t := by
  rw [run_add m 1 h, run_one]

/-- The runs of Safety.lean are the runs of the host's interface. -/
theorem run_eq_core (n : Nat) (s : State) : Host.Core.run Sys2Proof.core n s = run n s := by
  induction n generalizing s with
  | zero => rfl
  | succ n ih =>
    simp only [Host.Core.run, run, Sys2Proof.core]
    cases step s with
    | next t => exact ih t
    | fault f => rfl
    | refused r => rfl

end Sys2Proof.Machine
end

