-- ==== Sys2Proof/Laws/HostAside.lean ====
section
/-! SUPPORT. A busy block runs beside the host: its steps and runs are those with no access pending, and the accesses write the
pending list and the operand registers (R36, R38). So a proof about a run first has no access pending, then cites `run_hostOf`. -/

namespace Sys2Proof.Machine

/-- The pending accesses and the operand registers of one state, everything else of another. -/
def State.hostOf (h s : State) : State :=
  { s with hostQueue := h.hostQueue, reqSector := h.reqSector, reqCount := h.reqCount }

/-- Two states differ in what the host writes only. -/
theorem State.hostOf_self (s : State) : s.hostOf s = s := rfl

theorem State.resume_hostOf (h s : State) : (h.hostOf s).resume = h.hostOf s.resume := by
  unfold State.resume
  cases hr : s.ret <;>
    simp only [State.hostOf, hr, State.afterCmd0, State.afterCmd8, State.afterCmd55, State.afterCmd41, State.afterCmd58,
      State.afterCmd17, State.afterCmd24, State.leaveLoop, State.v2Test, State.takeError, State.finish, State.ccs]
  case iCmd58 => rw [← hr]; rfl
  case iCmd0 => split <;> rfl
  case iLoop41 => split <;> (try split) <;> rfl
  case rCmd17 => split <;> rfl
  case wCmd24 => split <;> rfl

/-- What happens to a next state, and a fault or a refusal the same. -/
def mapNext (f : State → State) : Host.Outcome State Fault Refusal → Host.Outcome State Fault Refusal
  | .next t => .next (f t)
  | .fault e => .fault e
  | .refused r => .refused r

theorem State.receive_hostOf (h s : State) (rx : Byte) : (h.hostOf s).receive rx = mapNext h.hostOf (s.receive rx) := by
  unfold State.receive
  cases hp : s.phase
  case fPoll =>
    simp only [State.hostOf, hp, State.pollR1, State.endPoll, mapNext]
    split
    · split
      · rfl
      · exact congrArg _ (State.resume_hostOf h { s with poll := s.poll + 1, r1 := rx, idx := 0 })
    · rfl
  case fTrail =>
    simp only [State.hostOf, hp, State.storeTrail, mapNext]
    split
    · rfl
    · exact congrArg _ (State.resume_hostOf h { s with trail := s.trail.set s.idx rx, idx := s.idx + 1 })
  case rData =>
    simp only [State.hostOf, hp, State.bufWrite]
    by_cases hb : s.offset + s.idx < s.bufLen
    · simp only [hb, if_true, State.afterReadByte, mapNext]
      split <;> rfl
    · simp only [hb, if_false, mapNext]
  case wBusy =>
    cases hb : s.par.writeBusyBound <;> simp only [State.hostOf, hp, State.busyWait, State.takeError, hb, mapNext] <;>
      (repeat' split) <;> first | rfl | rw [← hp]
  case wResp =>
    cases hb : s.par.writeBusyBound <;>
      simp only [State.hostOf, hp, State.judgeResponse, State.enterBusy, State.takeError, hb, mapNext] <;> split <;> rfl
  all_goals
    simp only [State.hostOf, hp, State.afterFrameByte, State.afterPowerup, State.pollToken, State.afterReadCrc,
      State.nextSector, State.advanceSector, State.returnError, State.finish, State.takeError, State.afterStartToken,
      State.afterWriteByte, State.afterWriteCrc, mapNext]
  all_goals (repeat' split) <;> rfl

/-- The point's own step neither reads nor writes what the host writes. -/
theorem State.pointStep_hostOf (h s : State) : (h.hostOf s).pointStep = mapNext h.hostOf s.pointStep := by
  have hx : ∀ tx, (h.hostOf s).exchangeAndReceive tx = mapNext h.hostOf (s.exchangeAndReceive tx) := fun tx =>
    State.receive_hostOf h (s.exchange tx) s.draw
  unfold State.pointStep
  cases hp : s.phase
  case wData =>
    simp only [show (h.hostOf s).phase = .wData from hp, State.sendDataByte, State.bufRead,
      show (h.hostOf s).offset = s.offset from rfl, show (h.hostOf s).idx = s.idx from rfl,
      show (h.hostOf s).bufLen = s.bufLen from rfl, show (h.hostOf s).buf = s.buf from rfl]
    by_cases hb : s.offset + s.idx < s.bufLen
    · simp only [hb, if_true]; exact hx _
    · simp only [hb, if_false, mapNext]
  case rHead => simp only [State.hostOf, hp, mapNext]; split <;> rfl
  case wHead => simp only [State.hostOf, hp, mapNext]; split <;> rfl
  all_goals
    have hp' : (h.hostOf s).phase = s.phase := rfl
    rw [hp] at hp'
    simp only [hp']
    first | exact hx _ | rfl

/-- The point's own step writes neither the reset input nor the host's registers, and refuses nothing. -/
theorem State.pointStep_host (s t : State) (ht : s.pointStep = .next t) :
    t.resetIn = s.resetIn ∧ t.hostQueue = s.hostQueue ∧ t.reqSector = s.reqSector ∧ t.reqCount = s.reqCount ∧
      t.reqOp = s.reqOp := by
  have hx : ∀ tx, s.exchangeAndReceive tx = .next t →
      t.resetIn = s.resetIn ∧ t.hostQueue = s.hostQueue ∧ t.reqSector = s.reqSector ∧ t.reqCount = s.reqCount ∧
        t.reqOp = s.reqOp := fun tx h =>
    let f := State.receive_frame _ _ _ h
    ⟨f.resetIn, f.hostQueue, f.reqSector, f.reqCount, f.reqOp⟩
  unfold State.pointStep at ht
  cases hp : s.phase <;> simp only [hp] at ht
  case wData =>
    unfold State.sendDataByte at ht
    split at ht
    · exact hx _ ht
    · cases ht
  all_goals
    first
    | exact hx _ ht
    | (injection ht with ht; subst ht; first | exact ⟨rfl, rfl, rfl, rfl, rfl⟩ | (split <;> exact ⟨rfl, rfl, rfl, rfl, rfl⟩))

/-- One busy step with no access pending, and the same step beside the host's accesses. -/
theorem step_hostOf (s s0 t0 : State) (hs : s = s.hostOf s0) (hq : s0.hostQueue = []) (hr : s0.resetIn = false)
    (hi : s0.phase ≠ .idle) (ht : step s0 = .next t0) :
    step s = .next (s.arrive.hostOf t0) ∧ t0.hostQueue = [] ∧ t0.resetIn = false := by
  have hr' : s.resetIn = false := by rw [hs]; exact hr
  have hi' : s.phase ≠ .idle := by rw [hs]; exact hi
  have ha : s.arrive = s.arrive.hostOf s0 := (s.arrive_eq_busy hi').trans (by rw [hs]; rfl)
  by_cases hf : s0.phase = .fSelect
  · have hf' : s.phase = .fSelect := by rw [hs]; exact hf
    have he : s.frame = s0.frame := by rw [hs]; rfl
    rcases step_fSelect s0.frame with ⟨n, p, h⟩ | h
    all_goals
      rw [h s0 hr hf rfl, State.arrive_nil s0 hq, Host.Outcome.next.injEq] at ht
      rw [h s hr' hf' he, ← ht]
      refine ⟨?_, hq, hr⟩
      rw [ha]
      first | rfl | (rw [hs]; rfl)
  · have hf' : s.phase ≠ .fSelect := by rw [hs]; exact hf
    rw [step_eq s0 hr hi hf, State.arrive_nil s0 hq] at ht
    obtain ⟨h1, h2, -⟩ := State.pointStep_host s0 t0 ht
    rw [step_eq s hr' hi' hf', ha, State.pointStep_hostOf, ht]
    exact ⟨rfl, h2.trans hq, h1.trans hr⟩

theorem State.arrivals_succ (n : Nat) (s : State) : s.arrivals (n + 1) = (s.arrivals n).arrive := by
  induction n generalizing s with
  | zero => rfl
  | succ n ih => exact ih s.arrive

theorem State.arrivals_phase (n : Nat) (s : State) : (s.arrivals n).phase = s.phase := by
  induction n with
  | zero => rfl
  | succ n ih => rw [State.arrivals_succ, State.arrive_phase, ih]

/-- What the arrivals of a busy block write. -/
theorem State.arrivals_eq (n : Nat) (s : State) (h : s.phase ≠ .idle) : s.arrivals n = (s.arrivals n).hostOf s := by
  induction n with
  | zero => rfl
  | succ n ih =>
    rw [State.arrivals_succ]
    have hp : (s.arrivals n).phase ≠ .idle := by rw [State.arrivals_phase]; exact h
    have h2 := State.arrive_eq_busy _ hp
    rw [ih] at h2 ⊢
    exact h2

theorem State.arrivals_nil (n : Nat) (s : State) (h : s.hostQueue = []) : s.arrivals n = s := by
  induction n with
  | zero => rfl
  | succ n ih => rw [State.arrivals_succ, ih, State.arrive_nil s h]

/-- An idle block with no access pending stays as it is. -/
theorem run_idle (n : Nat) (s : State) (hr : s.resetIn = false) (hp : s.phase = .idle) (hq : s.hostQueue = []) :
    run n s = .next s := by
  induction n with
  | zero => rfl
  | succ n ih =>
    rw [run_succ n ((step_idle_access s hr hp (by simp [hq])).trans (by rw [State.arrive_nil s hq]))]
    exact ih

/-- Arrivals depend on what the host writes and on being busy, and on nothing else. -/
theorem State.arrivals_congr (n : Nat) (s t u : State) (h : s.hostOf u = t.hostOf u) (hs : s.phase ≠ .idle)
    (ht : t.phase ≠ .idle) : (s.arrivals n).hostOf u = (t.arrivals n).hostOf u := by
  induction n with
  | zero => exact h
  | succ n ih =>
    rw [State.arrivals_succ, State.arrivals_succ]
    simp only [State.hostOf, State.mk.injEq] at ih
    have hb : (t.arrivals n).busy = (s.arrivals n).busy := by
      simp only [State.busy, State.arrivals_phase]
      rw [bne_iff_ne.2 hs, bne_iff_ne.2 ht]
    obtain ⟨h1, h2, h3⟩ := State.arrive_congr (s.arrivals n) (t.arrivals n) (by simp_all) (by simp_all) (by simp_all) hb
    simp only [State.hostOf, h1, h2, h3]

/-- A run with no access pending, busy until its last step, is the run beside any accesses of the host. -/
theorem run_hostOf (n : Nat) (s s0 t0 : State) (hs : s = s.hostOf s0) (hq : s0.hostQueue = []) (hr : s0.resetIn = false)
    (ht : run n s0 = .next t0) (hb : ∀ m u, m < n → run m s0 = .next u → u.phase ≠ .idle) :
    run n s = .next ((s.arrivals n).hostOf t0) := by
  induction n generalizing s s0 with
  | zero =>
    rw [run_zero, Host.Outcome.next.injEq] at ht
    rw [← ht, run_zero, ← State.hostOf_self (s.arrivals 0)]
    exact congrArg _ hs
  | succ n ih =>
    cases h0 : step s0 with
    | fault f => simp only [run, h0] at ht; cases ht
    | refused r => simp only [run, h0] at ht; cases ht
    | next u0 =>
      have hi : s0.phase ≠ .idle := hb 0 s0 (Nat.succ_pos n) rfl
      obtain ⟨h1, h2, h3⟩ := step_hostOf s s0 u0 hs hq hr hi h0
      rw [run_succ n h0] at ht
      rw [run_succ n h1]
      rw [ih (s.arrive.hostOf u0) u0 rfl h2 h3 ht fun m u hm hu =>
        hb (m + 1) u (Nat.succ_lt_succ hm) ((run_succ m h0).trans hu)]
      cases n with
      | zero => rfl
      | succ n =>
        have hu : u0.phase ≠ .idle := hb 1 u0 (by omega) ((run_one s0).trans h0)
        have hp : s.arrive.phase ≠ .idle := by rw [State.arrive_phase, hs]; exact hi
        exact congrArg _ (State.arrivals_congr (n + 1) (s.arrive.hostOf u0) s.arrive t0 rfl hu hp)

/-- A run with no access pending keeps it so, and was busy all along if it ends busy: an idle block would have stayed idle. -/
theorem run_quiet (n : Nat) (s0 t0 : State) (hq : s0.hostQueue = []) (hr : s0.resetIn = false)
    (ht : run n s0 = .next t0) :
    t0.hostQueue = [] ∧ t0.resetIn = false ∧
      (t0.phase ≠ .idle → ∀ m u, m < n → run m s0 = .next u → u.phase ≠ .idle) := by
  induction n generalizing s0 with
  | zero =>
    rw [run_zero, Host.Outcome.next.injEq] at ht
    exact ⟨ht ▸ hq, ht ▸ hr, fun _ m _ hm => absurd hm (Nat.not_lt_zero m)⟩
  | succ n ih =>
    by_cases hb : s0.phase = .idle
    · rw [run_idle (n + 1) s0 hr hb hq, Host.Outcome.next.injEq] at ht
      exact ⟨ht ▸ hq, ht ▸ hr, fun hi => absurd (ht ▸ hb) hi⟩
    · cases h0 : step s0 with
      | fault f => simp only [run, h0] at ht; cases ht
      | refused r => simp only [run, h0] at ht; cases ht
      | next u0 =>
        obtain ⟨-, h2, h3⟩ := step_hostOf s0 s0 u0 rfl hq hr hb h0
        rw [run_succ n h0] at ht
        obtain ⟨h4, h5, h6⟩ := ih u0 h2 h3 ht
        refine ⟨h4, h5, fun hi m u hm hu => ?_⟩
        cases m with
        | zero => rw [run_zero, Host.Outcome.next.injEq] at hu; exact hu ▸ hb
        | succ m => rw [run_succ m h0] at hu; exact h6 hi m u (by omega) hu

/-- A run with no access pending that ends busy is the run beside any accesses of the host. -/
theorem run_hostOf_busy (n : Nat) (s s0 t0 : State) (hs : s = s.hostOf s0) (hq : s0.hostQueue = [])
    (hr : s0.resetIn = false) (ht : run n s0 = .next t0) (hi : t0.phase ≠ .idle) :
    run n s = .next ((s.arrivals n).hostOf t0) :=
  run_hostOf n s s0 t0 hs hq hr ht ((run_quiet n s0 t0 hq hr ht).2.2 hi)

/-- The same with one step more, which may end the operation. -/
theorem run_hostOf_last (n : Nat) (s s0 u0 t0 : State) (hs : s = s.hostOf s0) (hq : s0.hostQueue = [])
    (hr : s0.resetIn = false) (hu : run n s0 = .next u0) (hi : u0.phase ≠ .idle) (ht : step u0 = .next t0) :
    run (n + 1) s = .next ((s.arrivals (n + 1)).hostOf t0) := by
  refine run_hostOf (n + 1) s s0 t0 hs hq hr ((run_snoc n hu).trans ht) fun m u hm hmu => ?_
  rcases Nat.lt_succ_iff_lt_or_eq.1 hm with hm | rfl
  · exact (run_quiet n s0 u0 hq hr hu).2.2 hi m u hm hmu
  · rw [hu, Host.Outcome.next.injEq] at hmu
    exact hmu ▸ hi

end Sys2Proof.Machine
end

