-- ==== Sys2Proof/Laws/PerInstr.lean ====
section
/-! SUPPORT. Facts about each instruction as syntax, one lemma a constructor. -/

namespace Sys2Proof

/-- The bytes of a word of a format (R91: six; R101: 66 bits in nine bytes; T-TOKENS: one). -/
def Format.byteLength : Format → Nat
  | .cmdFrame => 6
  | .hostReq => 9
  | .tx | .txCrc | .r1Poll | .r1Test | .readToken | .dataResponse | .busy | .r7Byte2 | .r7Byte3 | .ocrByte0 => 1

namespace Laws.EncodeLength

/-- An instruction's word has the length of its format. -/
def Statement (i : Instr) : Prop := (encode i).length = i.format.byteLength

theorem cmd0 (crc : Byte) : Statement (.cmd0 crc) := rfl
theorem cmd8 (crc : Byte) : Statement (.cmd8 crc) := rfl
theorem cmd55 (crc : Byte) : Statement (.cmd55 crc) := rfl
theorem acmd41V2 (crc : Byte) : Statement (.acmd41V2 crc) := rfl
theorem acmd41Legacy (crc : Byte) : Statement (.acmd41Legacy crc) := rfl
theorem cmd58 (crc : Byte) : Statement (.cmd58 crc) := rfl
theorem cmd17 (argument : Word32) (crc : Byte) : Statement (.cmd17 argument crc) := rfl
theorem cmd24 (argument : Word32) (crc : Byte) : Statement (.cmd24 argument crc) := rfl
theorem init (sector count : Word32) : Statement (.init sector count) := rfl
theorem readBlocks (sector count : Word32) : Statement (.readBlocks sector count) := rfl
theorem writeBlocks (sector count : Word32) : Statement (.writeBlocks sector count) := rfl
theorem filler : Statement .filler := rfl
theorem startTokenTx : Statement .startTokenTx := rfl
theorem dummyCrc : Statement .dummyCrc := rfl
theorem r1Valid (byte : Byte) : Statement (.r1Valid byte) := rfl
theorem r1Idle : Statement .r1Idle := rfl
theorem r1Ready : Statement .r1Ready := rfl
theorem startTokenRx : Statement .startTokenRx := rfl
theorem dataAccepted (byte : Byte) : Statement (.dataAccepted byte) := rfl
theorem busyByte : Statement .busyByte := rfl
theorem echoVolt : Statement .echoVolt := rfl
theorem echoPattern : Statement .echoPattern := rfl
theorem ocrCcs (byte : Byte) : Statement (.ocrCcs byte) := rfl

end Laws.EncodeLength

end Sys2Proof
end

