-- ==== Sys2Proof/Tests/Slice0.lean ====
section
/-! SUPPORT. Own tests. Expected values are the spec's: its encodings (30_encoding.md), its vectors (95_test_vectors.md, named
in each comment) and hand calculation from its rules. The witnesses at the end meet the hypotheses of the obligations. -/

namespace Sys2Proof.Test

open Sys2Proof Sys2Proof.Machine

/-- The next state, if there is one. -/
def nextState : Host.Outcome State Fault Refusal → Option State
  | .next s => some s
  | .fault _ => none
  | .refused _ => none

/-- The refusal, if there is one. -/
def refusal : Host.Outcome State Fault Refusal → Option Refusal
  | .next _ => none
  | .fault _ => none
  | .refused r => some r

/-- A state at a program point, the card about to answer the bytes given. -/
def at_ (p : Phase) (answers : List Byte) : State :=
  { State.reset with phase := p, card := { script := answers, forever := none, drawn := 0 } }

/-- The command of a call site under way, at a point of the framer. -/
def framer (p : Phase) (ret : RetPoint) (answers : List Byte) : State :=
  { at_ p answers with ret := ret, tlen := ret.tlen, sel := true }

/-! ## WellFormed refuses -/

theorem test_wf_refuses_r1_with_bit_7 : (Instr.r1Valid 0x80).wf = false := by decide
theorem test_wf_refuses_unaccepted_response : (Instr.dataAccepted 0x0B).wf = false := by decide
theorem test_wf_refuses_ocr_without_ccs : (Instr.ocrCcs 0x80).wf = false := by decide

/-! ## Decoding: words written out from T-CMDFRAME, T-FRAMES, R101, T-TOKENS (FRM-1 to FRM-13, HOST-2) -/

theorem test_decode_frames :
    decode .cmdFrame [0x40, 0x00, 0x00, 0x00, 0x00, 0x95] = .ok (.cmd0 0x95) ∧
      decode .cmdFrame [0x48, 0x00, 0x00, 0x01, 0xAA, 0x87] = .ok (.cmd8 0x87) ∧
      decode .cmdFrame [0x77, 0x00, 0x00, 0x00, 0x00, 0xFF] = .ok (.cmd55 0xFF) ∧
      decode .cmdFrame [0x69, 0x40, 0x00, 0x00, 0x00, 0xFF] = .ok (.acmd41V2 0xFF) ∧
      decode .cmdFrame [0x69, 0x00, 0x00, 0x00, 0x00, 0xFF] = .ok (.acmd41Legacy 0xFF) ∧
      decode .cmdFrame [0x7A, 0x00, 0x00, 0x00, 0x00, 0xFF] = .ok (.cmd58 0xFF) ∧
      decode .cmdFrame [0x51, 0x00, 0x00, 0x00, 0x0A, 0xFF] = .ok (.cmd17 10 0xFF) ∧
      decode .cmdFrame [0x58, 0x00, 0x00, 0x06, 0x00, 0xFF] = .ok (.cmd24 0x600 0xFF) :=
  ⟨rfl, rfl, rfl, rfl, rfl, rfl, rfl, rfl⟩

/-- CMD17 bit by bit: start 0, transmission 1, index 010001, the argument, the crc (R91, R102). -/
theorem test_decode_cmd17_bits :
    decode .cmdFrame [0b01010001, 0b00010010, 0b00110100, 0b01010110, 0b01111000, 0b11111111] =
      .ok (.cmd17 0x12345678 0xFF) := rfl

theorem test_decode_requests :
    decode .hostReq [0b00000001, 0, 0, 0, 0, 0, 0, 0, 0] = .ok (.init 0 0) ∧
      decode .hostReq [0b00000010, 0, 0, 0, 0x0A, 0, 0, 0, 0x03] = .ok (.readBlocks 10 3) ∧
      decode .hostReq [0b00000011, 0, 0, 0, 0x64, 0, 0, 0, 0x02] = .ok (.writeBlocks 100 2) :=
  ⟨rfl, rfl, rfl⟩

theorem test_decode_tokens_sent :
    decode .tx [0b11111111] = .ok .filler ∧ decode .tx [0b11111110] = .ok .startTokenTx ∧
      decode .txCrc [0b11111111] = .ok .dummyCrc :=
  ⟨rfl, rfl, rfl⟩

theorem test_decode_tokens_received :
    decode .r1Poll [0b01111111] = .ok (.r1Valid 0x7F) ∧ decode .r1Test [0b00000001] = .ok .r1Idle ∧
      decode .r1Test [0b00000000] = .ok .r1Ready ∧ decode .readToken [0b11111110] = .ok .startTokenRx ∧
      decode .dataResponse [0b11100101] = .ok (.dataAccepted 0xE5) ∧ decode .busy [0b00000000] = .ok .busyByte ∧
      decode .r7Byte2 [0b00000001] = .ok .echoVolt ∧ decode .r7Byte3 [0b10101010] = .ok .echoPattern ∧
      decode .ocrByte0 [0b11000000] = .ok (.ocrCcs 0xC0) :=
  ⟨rfl, rfl, rfl, rfl, rfl, rfl, rfl, rfl, rfl⟩

theorem test_decode_refuses :
    decode .cmdFrame [0x7F, 0xFF, 0xFF, 0xFF, 0xFF, 0x00] = .error .indexNotEmitted ∧
      decode .cmdFrame [0x40, 0x00, 0x00, 0x00, 0x01, 0x95] = .error .argumentNotEmitted ∧
      decode .cmdFrame [0xC0, 0x00, 0x00, 0x00, 0x00, 0x95] = .error .notAFrame ∧
      decode .cmdFrame [0x40] = .error .wrongLength ∧
      decode .hostReq [0x00, 0, 0, 0, 0, 0, 0, 0, 0] = .error .noOperation ∧
      decode .hostReq [0x05, 0, 0, 0, 0, 0, 0, 0, 0] = .error .reservedBits ∧
      decode .dataResponse [0x0B] = .error .notAToken ∧ decode .busy [0x01] = .error .notAToken :=
  ⟨rfl, rfl, rfl, rfl, rfl, rfl, rfl, rfl⟩

/-- The words as 95_test_vectors.md writes them (FRM-1, FRM-2, FRM-7, HOST-2). -/
theorem test_table_words :
    decodeTableWord 48 0x400000000095 = some (.cmd0 0x95) ∧ decodeTableWord 48 0x48000001AA87 = some (.cmd8 0x87) ∧
      decodeTableWord 48 0x510000000AFF = some (.cmd17 10 0xFF) ∧
      decodeTableWord 72 0x20000000A00000001 = some (.readBlocks 10 1) ∧
      decodeTableWord 8 0xFE = some .startTokenTx ∧ decodeTableWord 8 0xAA = some .echoPattern := by
  decide

/-! ## Reset (HOST-1) -/

theorem test_reset_stat : State.reset.stat = 0x00 := by decide

/-! ## One step per instruction -/

/-- CMD-10, R151: the select before a frame is idempotent. -/
theorem test_cmd0_selects : (nextState (exec (.cmd0 0x95) State.reset)).map (·.sel) = some true := by decide
theorem test_cmd0_frame :
    (nextState (exec (.cmd0 0x95) State.reset)).map (·.frame.bytes) = some [0x40, 0x00, 0x00, 0x00, 0x00, 0x95] := by decide
/-- FRM-2: four trailing bytes. -/
theorem test_cmd8_trailing : (nextState (exec (.cmd8 0x87) State.reset)).map (·.tlen) = some 4 := by decide
theorem test_cmd8_frame :
    (nextState (exec (.cmd8 0x87) State.reset)).map (·.frame.bytes) = some [0x48, 0x00, 0x00, 0x01, 0xAA, 0x87] := by decide
theorem test_cmd55_frame :
    (nextState (exec (.cmd55 0xFF) State.reset)).map (·.frame.bytes) = some [0x77, 0x00, 0x00, 0x00, 0x00, 0xFF] := by decide
theorem test_acmd41_v2_frame :
    (nextState (exec (.acmd41V2 0xFF) State.reset)).map (·.frame.bytes) = some [0x69, 0x40, 0x00, 0x00, 0x00, 0xFF] := by
  decide
theorem test_acmd41_legacy_frame :
    (nextState (exec (.acmd41Legacy 0xFF) State.reset)).map (·.frame.bytes) = some [0x69, 0x00, 0x00, 0x00, 0x00, 0xFF] := by
  decide
theorem test_cmd58_frame :
    (nextState (exec (.cmd58 0xFF) State.reset)).map (·.frame.bytes) = some [0x7A, 0x00, 0x00, 0x00, 0x00, 0xFF] := by decide
/-- FRM-8: CMD17 of sector 10 on an SDSC card, sent at R_CMD17. -/
theorem test_cmd17_sdsc_frame :
    (nextState (step { at_ .rCmd17 [] with sector := 10 })).map (·.frame.bytes) =
      some [0x51, 0x00, 0x00, 0x14, 0x00, 0xFF] := by decide
/-- FRM-10: CMD24 of sector 3 on an SDHC card, the first of a request. -/
theorem test_cmd24_sdhc_frame :
    (nextState (step { at_ .wHead [] with sector := 3, remain := 1, capacityClass := .sdhc })).map (·.frame.bytes) =
      some [0x58, 0x00, 0x00, 0x00, 0x03, 0xFF] := by decide

/-- R181 is the next step: the request only starts INIT. -/
theorem test_init_starts : (nextState (exec (.init 0 0) State.reset)).map (·.phase) = some .iEntry := by decide
/-- U3: a request while busy. -/
theorem test_init_while_busy : refusal (exec (.init 0 0) (at_ .wBusy [])) = some .requestWhileBusy := by decide
/-- RD-8: a read of no sectors ends OK with SEL still 1. -/
theorem test_read_of_no_sectors :
    (nextState (step { at_ .rHead [] with sel := true })).map (fun s => (s.phase, s.stat)) = some (.idle, 0x40) := by decide
theorem test_read_starts :
    (nextState (exec (.readBlocks 10 1) { State.reset with bufLen := 512 })).map (fun s => (s.phase, s.reqSector, s.sector)) =
      some (.rHead, 10, 10) := by decide
/-- R38: the host writes REQ_SECTOR while the block is busy; the register holds it and the operation goes on with the sector
it copied. -/
theorem test_operand_write_while_busy :
    (nextState (step { at_ .rHead [] with sector := 10, remain := 1, hostQueue := [.write .reqSector 99] })).map
        (fun s => (s.reqSector, s.sector, s.frame.argument, s.hostQueue)) = some (99, 10, 0x1400, []) := by decide
/-- R314: a request waits while the block is busy. -/
theorem test_request_waits :
    (nextState (step { at_ .wReselect [] with hostQueue := [.write .reqOp 1] })).map (fun s => (s.phase, s.hostQueue)) =
      some (.wToken, [.write .reqOp 1]) := by decide
theorem test_write_starts :
    (nextState (exec (.writeBlocks 3 1) { State.reset with bufLen := 512 })).map (·.phase) = some .wHead := by decide
/-- U7: a buffer one byte short. -/
theorem test_write_short_buffer :
    refusal (exec (.writeBlocks 3 1) { State.reset with bufLen := 511 }) = some .bufferTooShort := by decide

/-- BUS-7: the closing filler, deselected, whatever comes in. -/
theorem test_filler_record :
    (nextState (exec .filler { at_ .rErrFiller [0x7E] with clk := .fast })).map (·.trace) =
      some [{ tx := 0xFF, rx := 0x7E, sel := false, clk := .fast }] := by decide
/-- R235: a received data byte goes to OFFSET + IDX. -/
theorem test_filler_stores_data :
    (nextState (exec .filler { at_ .rData [0x3C] with offset := 512, idx := 7, bufLen := 1024 })).map (·.buf) =
      some [(519, 0x3C)] := by decide
theorem test_start_token_sent :
    (nextState (exec .startTokenTx { at_ .wToken [0x05] with idx := 9 })).map (fun s => (s.phase, s.idx)) =
      some (.wData, 0) := by decide
/-- R243: two dummy CRC bytes, then the data response. -/
theorem test_dummy_crc_second :
    (nextState (exec .dummyCrc { at_ .wCrc [0x00] with idx := 1 })).map (·.phase) = some .wResp := by decide
theorem test_dummy_crc_first : (nextState (exec .dummyCrc (at_ .wCrc [0x00]))).map (·.phase) = some .wCrc := by decide
/-- CMD-6, RD-2: 0x7F ends the poll and is no acceptance. -/
theorem test_r1_valid_ends_poll :
    (nextState (exec (.r1Valid 0x7F) (framer .fPoll .rCmd17 []))).map (fun s => (s.r1, s.phase, s.err)) =
      some (0x7F, .rErrDeselect, .commandRejected) := by decide
/-- CMD-1. -/
theorem test_r1_idle_after_cmd0 :
    (nextState (exec .r1Idle (framer .fPoll .iCmd0 []))).map (fun s => (s.r1, s.phase)) = some (0x01, .iCmd8) := by decide
/-- INI-1: 0x00 to CMD0 ends INIT with Cmd0Failed, SEL left 1, STAT = 0x42. -/
theorem test_r1_ready_after_cmd0 :
    (nextState (exec .r1Ready (framer .fPoll .iCmd0 []))).map (fun s => (s.phase, s.stat)) = some (.idle, 0x42) := by decide
theorem test_r1_ready_after_cmd17 :
    (nextState (exec .r1Ready (framer .fPoll .rCmd17 []))).map (·.phase) = some .rToken := by decide
/-- RD-4: the token on the last poll is accepted. -/
theorem test_start_token_received :
    (nextState (exec .startTokenRx { at_ .rToken [] with poll := 65534 })).map (fun s => (s.phase, s.idx)) =
      some (.rData, 0) := by decide
/-- WR-1: 0xE5 accepts. -/
theorem test_data_accepted :
    (nextState (exec (.dataAccepted 0xE5) (at_ .wResp []))).map (fun s => (s.phase, s.resp)) = some (.wBusy, 0xE5) := by decide
/-- WR-1: 0x15 does not, bit 4 is inside the mask. -/
theorem test_response_rejected :
    (nextState (step (at_ .wResp [0x15]))).map (fun s => (s.phase, s.err)) =
      some (.wErrDeselect, .writeResponseRejected) := by decide
/-- WR-3: 0x00 keeps the wait. -/
theorem test_busy_byte_waits : (nextState (exec .busyByte (at_ .wBusy []))).map (·.phase) = some .wBusy := by decide
/-- WR-8: with a bound of 3 the third 0x00 ends it. -/
theorem test_busy_byte_bound :
    (nextState (exec .busyByte
        { at_ .wBusy [] with poll := 2, par := { Config.Params.defaults with writeBusyBound := some 3 } })).map (·.err) =
      some .writeBusyTimeout := by decide
theorem test_echo_volt :
    (nextState (exec .echoVolt { framer .fTrail .iCmd8 [] with idx := 2 })).map (fun s => (s.trail.b2, s.idx, s.phase)) =
      some (0x01, 3, .fTrail) := by decide
/-- INI-5: R1 = 0x01 and TRAIL = 12 34 01 AA choose the v2 branch. -/
theorem test_echo_pattern :
    (nextState (exec .echoPattern
        { framer .fTrail .iCmd8 [] with idx := 3, r1 := 0x01, trail := ⟨0x12, 0x34, 0x01, 0x00⟩ })).map
          (fun s => (s.v2, s.phase)) = some (true, .iLoop55) := by decide
theorem test_ocr_ccs_stored :
    (nextState (exec (.ocrCcs 0xC0) (framer .fTrail .iCmd58 []))).map (fun s => (s.trail.b0, s.phase)) =
      some (0xC0, .fTrail) := by decide
/-- INI-6: with R1 = 0x00 and TRAIL[0] = 0x40 the class is SDHC. -/
theorem test_ocr_decides :
    (nextState (step { framer .fTrail .iCmd58 [0x00] with idx := 3, r1 := 0x00, trail := ⟨0x40, 0, 0, 0⟩ })).map
        (·.capacityClass) = some .sdhc := by decide

/-! ## The addresses of ADR-9 and ADR-10, and a byte at bit level (BUS-10) -/

theorem test_encode_address_wraps :
    encodeAddress .sdsc 0x00800000 = 0x00000000 ∧ encodeAddress .sdsc 0xFFFFFFFF = 0xFFFFFE00 := by decide
theorem test_exchange_bits :
    (Serializer.wave [true, true, false, false, false, false, true, true] (Serializer.load 0xA5)).map (·.mosi) =
        [true, true, true, false, false, false, true, true, true, false, false, false, false, false, false, true, true, true,
          false, false, false, true, true, true, true] ∧
      (Serializer.shift [true, true, false, false, false, false, true, true] (Serializer.load 0xA5)).rxsr = 0xC3 := by decide
/-- R135: eight pulses of SCLK, low before and after each. -/
theorem test_exchange_pulses :
    (State.reset.exchangePins 0xA5 0xC3).map (·.sclk) =
      [false, true, false, false, true, false, false, true, false, false, true, false, false, true, false, false, true, false,
        false, true, false, false, true, false, false] := by decide

/-! ## Witnesses: states that meet the hypotheses of each obligation that has some, at the boundaries of its clauses -/

/-- CMD0 sent, its answer due: the first and the last exchange of the poll. -/
def cmd0Poll (poll : Nat) (answer : Byte) : State :=
  { framer .fPoll .iCmd0 [answer] with reqOp := 1, poll := poll, frame := ⟨0, 0, 0x95⟩ }

/-- INIT's finalize step after an SDHC card. -/
def finalize : State :=
  { at_ .iFinDeselect [] with reqOp := 1, sel := true, capacityClass := .sdhc }

/-- The last step of INIT. -/
def initFast : State := { at_ .iFinFast [] with reqOp := 1 }

/-- A write of the last sector of a request, waiting on the card. -/
def busyWrite (bound : Option Nat) : State :=
  { at_ .wBusy [] with
    reqOp := 3, sector := 3, remain := 1, bufLen := 512, sel := true, clk := .fast
    par := { Config.Params.defaults with writeBusyBound := bound } }

/-- The host asks for a sector with no buffer bound. -/
def shortRequest : State := { State.reset with reqCount := 1, hostQueue := [.write .reqOp 2] }

/-- The last trailing byte after CMD58 due, `r1` and the OCR's first byte received. -/
def ocrRead (r1 ocr : Byte) : State :=
  { framer .fTrail .iCmd58 [0xFF] with
    reqOp := 1, v2 := true, idx := 3, r1 := r1, trail := ⟨ocr, 0, 0, 0⟩, frame := ⟨58, 0, 0xFF⟩ }

/-- The closing filler of sector 0xFFFFFFFF of a read due, the second of three. -/
def sectorDone : State :=
  { at_ .rEndFiller [0xFF] with reqOp := 2, sector := 0xFFFFFFFF, remain := 2, offset := 512, bufLen := 1536 }

/-- The closing filler of a rejected read due. -/
def errorFiller : State := { at_ .rErrFiller [0xFF] with reqOp := 2, err := .commandRejected }

theorem ocrRead_inv : (ocrRead 0x00 0x40).Inv ∧ (ocrRead 0x00 0xBF).Inv ∧ (ocrRead 0xFF 0xC0).Inv := by
  refine ⟨?_, ?_, ?_⟩ <;> constructor <;> decide
theorem sectorDone_inv : sectorDone.Inv := by constructor <;> decide
theorem errorFiller_inv : errorFiller.Inv := by constructor <;> decide
theorem reset_inv : State.reset.Inv := by constructor <;> decide
theorem cmd0Poll_inv : (cmd0Poll 0 0x01).Inv ∧ (cmd0Poll 499 0xFF).Inv := by
  constructor <;> constructor <;> decide
theorem finalize_inv : finalize.Inv := by constructor <;> decide
theorem initFast_inv : initFast.Inv := by constructor <;> decide
theorem busyWrite_inv : (busyWrite none).Inv ∧ (busyWrite (some 1)).Inv := by constructor <;> constructor <;> decide
theorem shortRequest_inv : shortRequest.Inv := by constructor <;> decide

theorem witness_ResetInputAbandonsTheOperation : ({ busyWrite none with resetIn := true } : State).resetIn = true := rfl

theorem witness_EncodedInstructionsDecodeBack :
    (Instr.dataAccepted 0xE5).wf = true ∧ (Instr.r1Valid 0x7F).wf = true ∧ (Instr.ocrCcs 0xFF).wf = true ∧
      (Instr.cmd17 0xFFFFFFFF 0x00).wf = true := by decide

theorem witness_DecodedWordsEncodeBack : decode .busy [0x00] = .ok .busyByte := rfl

/-- A frame instruction; the last byte of a frame due. -/
theorem witness_FramerSendsTheEncodedFrame :
    (Instr.cmd24 0xFFFFFFFF 0xFF).format = .cmdFrame ∧ (at_ .fTx []).resetIn = false ∧ (at_ .fTx []).phase = .fTx ∧
      ({ at_ .fTx [] with idx := 5, frame := ⟨0, 0, 0x95⟩ } : State).frame.bytes[5]? = some 0x95 :=
  ⟨rfl, rfl, rfl, by decide⟩

theorem witness_PlacedTableWordsRun :
    decodeTableWord 8 0xFE = some .startTokenTx ∧ decodeTableWord 48 0x7A00000000FF = some (.cmd58 0xFF) ∧
      decodeTableWord 66 0x3FFFFFFFFFFFFFFFF = some (.writeBlocks 0xFFFFFFFF 0xFFFFFFFF) :=
  ⟨by decide, by decide, rfl⟩

theorem witness_StepRunsTheInstructionDue :
    (at_ .iCmd0 []).resetIn = false ∧ (at_ .iCmd0 []).fetch = some (.cmd0 0x95) ∧
      ({ State.reset with hostQueue := [.write .reqOp 1] } : State).fetch = some (.init 0 0) ∧
      ({ at_ .rHead [] with remain := 1 } : State).fetch = some (.cmd17 0 0xFF) ∧
      ({ at_ .wHead [] with remain := 0xFFFFFFFF } : State).fetch = some (.cmd24 0 0xFF) ∧
      (let busy (a : HostAccess) : State := { busyWrite none with hostQueue := [a] }
       (busy (.write .reqCount 9)).arrive = { busyWrite none with reqCount := 9 } ∧
         (busy (.write .reqOp 4)).arrive = busyWrite none ∧
         (busy (.write .reqOp 3)).arrive = busy (.write .reqOp 3) ∧
         (busy (.bindBuffer [])).arrive = busy (.bindBuffer [])) := by decide

/-- Two readings of one exchange: 0x01 in the R1 poll. -/
theorem witness_EveryReadingOfAWordDueIsTheStep :
    (Format.r1Test, [(0x01 : Byte)]) ∈ (at_ .fPoll [0x01]).dueWords ∧ decode .r1Test [0x01] = .ok .r1Idle ∧
      (Format.r1Poll, [(0x01 : Byte)]) ∈ (at_ .fPoll [0x01]).dueWords ∧ decode .r1Poll [0x01] = .ok (.r1Valid 0x01) :=
  ⟨by decide, rfl, by decide, rfl⟩

/-- Both clauses: a step without an exchange, a step with one. -/
theorem witness_AStepMakesAtMostOneExchange :
    (∃ t, step (at_ .wReselect []) = .next t) ∧ ∃ t, step (at_ .wGap [0xFF]) = .next t := ⟨⟨_, rfl⟩, ⟨_, rfl⟩⟩

theorem witness_EveryStepKeepsTheInvariant : (cmd0Poll 0 0x01).Inv ∧ ∃ t, step (cmd0Poll 0 0x01) = .next t :=
  ⟨cmd0Poll_inv.1, _, rfl⟩

theorem witness_NoRunFaults : shortRequest.Inv ∧ refusal (step shortRequest) = some .bufferTooShort :=
  ⟨shortRequest_inv, by decide⟩

/-- The clock and `initialized` move at I_ENTRY and I_FIN_FAST, the capacity class at the exchange after CMD58. -/
theorem witness_OnlyInitWritesCardStateAndClock :
    (nextState (step { at_ .iEntry [] with clk := .fast, initialized := true })).map (fun s => (s.clk, s.initialized)) =
        some (.slow, false) ∧
      (nextState (step initFast)).map (fun s => (s.clk, s.initialized)) = some (.fast, true) ∧
      (nextState (step { framer .fPoll .iLoop41 [0x00] with capacityClass := .sdhc })).map (·.capacityClass) =
        some .sdsc ∧
      (nextState (step (ocrRead 0x00 0x40))).map (·.capacityClass) = some .sdhc := by decide

theorem witness_EveryDeselectIsFollowedByAFiller :
    finalize.resetIn = false ∧ finalize.sel = true ∧ (nextState (step finalize)).map (·.sel) = some false := by decide

theorem witness_ABusyBlockIgnoresTheHost :
    (cmd0Poll 499 0xFF).resetIn = false ∧ (cmd0Poll 499 0xFF).phase ≠ .idle ∧
      ∃ t, step (cmd0Poll 499 0xFF) = .next t := ⟨rfl, by decide, _, rfl⟩

theorem witness_DiscardedBytesSteerNothing :
    (∃ t, step (at_ .wGap [0x00]) = .next t) ∧ (∃ t, step { at_ .wData [0x05] with bufLen := 1 } = .next t) ∧
      ∃ t, step (at_ .rCrc [0xFE]) = .next t := ⟨⟨_, rfl⟩, ⟨_, rfl⟩, ⟨_, rfl⟩⟩

theorem witness_OnlyReadDataStoresToTheBuffer :
    (∃ t, step { at_ .rData [0x3C] with idx := 511, bufLen := 512 } = .next t) ∧ Memory.WF State.reset.buf ∧
      ∃ t, step (at_ .rCrc [0x3C]) = .next t := ⟨⟨_, rfl⟩, by decide, ⟨_, rfl⟩⟩

/-- An operation that ends and one that waits for ever. -/
theorem witness_EveryOperationEndsOrWaitsOnABusyCard :
    ((cmd0Poll 0 0x01).Inv ∧ (cmd0Poll 0 0x01).resetIn = false ∧ (cmd0Poll 0 0x01).phase ≠ .idle) ∧
      (busyWrite none).Inv ∧ (busyWrite none).resetIn = false ∧ (busyWrite none).phase ≠ .idle :=
  ⟨⟨cmd0Poll_inv.1, rfl, by decide⟩, busyWrite_inv.1, rfl, by decide⟩

theorem witness_OnlyAnUnboundedWriteCanHang :
    ((cmd0Poll 0 0x01).Inv ∧ (cmd0Poll 0 0x01).phase ≠ .idle ∧ (cmd0Poll 0 0x01).reqOp ≠ 3) ∧
      (busyWrite (some 1)).Inv ∧ (busyWrite (some 1)).phase ≠ .idle ∧ (busyWrite (some 1)).par.writeBusyBound ≠ none :=
  ⟨⟨cmd0Poll_inv.1, by decide, by decide⟩, busyWrite_inv.2, by decide, by decide⟩

/-- CMD-7 with every trailing byte, and CMD-3, CMD-4: the 500th byte of the poll, answering and not. -/
theorem witness_SendCommandExchange :
    (∃ (six skipped trailing rest : List Byte) (answer : Byte), six.length = 6 ∧ skipped = [] ∧
        (answer.msb = false ∧ skipped.length < 500 ∨ skipped.length = 499) ∧ trailing.length = (4 : Fin 5).val ∧
        (at_ .iCmd8 (six ++ skipped ++ answer :: (trailing ++ rest))).card.script =
          six ++ skipped ++ answer :: (trailing ++ rest)) ∧
      ∀ answer : Byte, ∃ skipped : List Byte, (∀ b ∈ skipped, b.msb = true) ∧
        (answer.msb = false ∧ skipped.length < 500 ∨ skipped.length = 499) :=
  ⟨⟨List.replicate 6 0xFF, [], [0x00, 0x00, 0x01, 0xAA], [0xFF], 0x01, rfl, rfl, by decide, rfl, rfl⟩,
    fun _ => ⟨List.replicate 499 0xFF, fun b hb => by rw [List.eq_of_mem_replicate hb]; rfl, .inr (List.length_replicate ..)⟩⟩

theorem witness_UnansweredPollGoesOn :
    (cmd0Poll 498 0x80).resetIn = false ∧ (cmd0Poll 498 0x80).phase = .fPoll ∧ (cmd0Poll 498 0x80).draw.msb = true ∧
      (cmd0Poll 498 0x80).poll + 1 ≠ 500 := by decide

theorem witness_InitStartsWithTenFillersDeselectedAtSlowClock :
    (at_ .iEntry []).resetIn = false ∧ (at_ .iEntry []).phase = .iEntry := by decide

/-- 0x01, and the 500th byte still unanswered. -/
theorem witness_Cmd0AnswerDecidesInit :
    ((cmd0Poll 0 0x01).Inv ∧ (cmd0Poll 0 0x01).phase = .fPoll ∧ (cmd0Poll 0 0x01).ret = .iCmd0 ∧
        (cmd0Poll 0 0x01).draw = 0x01 ∧ (cmd0Poll 0 0x01).draw.msb = false) ∧
      (cmd0Poll 499 0xFF).Inv ∧ (cmd0Poll 499 0xFF).draw ≠ 0x01 ∧ (cmd0Poll 499 0xFF).poll + 1 = 500 :=
  ⟨⟨cmd0Poll_inv.1, rfl, rfl, rfl, by decide⟩, cmd0Poll_inv.2, by decide, rfl⟩

theorem witness_Cmd8AnswerChoosesTheBranch :
    ∃ s : State, s.resetIn = false ∧ s.phase = .fTrail ∧ s.ret = .iCmd8 ∧ s.tlen = 4 ∧ s.idx = 3 ∧ s.r1 = 0x01 ∧
      s.trail.get 2 = 0x01 ∧ s.draw = 0xAA :=
  ⟨{ framer .fTrail .iCmd8 [0xAA] with idx := 3, r1 := 0x01, trail := ⟨0, 0, 1, 0⟩ }, by decide⟩

/-- CMD55 unanswered; CMD41: the last iteration of the legacy branch, and a first iteration that goes on. -/
theorem witness_Acmd41LoopRunsToReadyOrExhaustion :
    (∃ s : State, s.resetIn = false ∧ s.phase = .fPoll ∧ s.ret = .iLoop55 ∧ s.tlen = 0 ∧ s.poll + 1 = 500) ∧
      (∃ s : State, s.resetIn = false ∧ s.phase = .fPoll ∧ s.ret = .iLoop41 ∧ s.tlen = 0 ∧ s.draw.msb = false ∧
        s.draw ≠ 0x00 ∧ s.retry + 1 = 65535 ∧ s.v2 = false) ∧
      (∃ s : State, s.phase = .fPoll ∧ s.ret = .iLoop41 ∧ s.draw = 0x00 ∧ s.draw.msb = false ∧ s.v2 = true) ∧
      ∃ s : State, s.phase = .fPoll ∧ s.ret = .iLoop41 ∧ s.draw ≠ 0x00 ∧ s.draw.msb = false ∧ s.retry + 1 ≠ 65535 :=
  ⟨⟨{ framer .fPoll .iLoop55 [0xFF] with poll := 499 }, by decide⟩,
    ⟨{ framer .fPoll .iLoop41 [0x01] with retry := 65534 }, by decide⟩,
    ⟨{ framer .fPoll .iLoop41 [0x00] with v2 := true }, by decide⟩, ⟨framer .fPoll .iLoop41 [0x01], by decide⟩⟩

theorem witness_Acmd41ArgumentFollowsTheBranch :
    (at_ .iLoop41 []).resetIn = false ∧ (at_ .iLoop41 []).phase = .iLoop41 ∧ (at_ .iLoop41 []).v2 = false ∧
      ({ at_ .iLoop41 [] with v2 := true } : State).v2 = true := by decide

theorem witness_Cmd58AnswerDecidesTheCapacityClass :
    (at_ .iCmd58 []).phase = .iCmd58 ∧
      (∃ s : State, s.resetIn = false ∧ s.phase = .fPoll ∧ s.ret = .iLoop41 ∧ s.tlen = 0 ∧ s.v2 = true ∧
        s.retry + 1 = 65535 ∧ s.draw.msb = false) ∧
      ((ocrRead 0x00 0x40).Inv ∧ (ocrRead 0x00 0x40).idx = 3 ∧ (ocrRead 0x00 0x40).r1 = 0x00 ∧
        ((ocrRead 0x00 0x40).trail.get 0).getLsbD 6 = true) ∧
      ((ocrRead 0x00 0xBF).Inv ∧ ((ocrRead 0x00 0xBF).trail.get 0).getLsbD 6 = false) ∧
      (ocrRead 0xFF 0xC0).Inv ∧ (ocrRead 0xFF 0xC0).r1 ≠ 0x00 :=
  ⟨rfl, ⟨{ framer .fPoll .iLoop41 [0x01] with retry := 65534, v2 := true }, by decide⟩,
    ⟨ocrRead_inv.1, rfl, rfl, by decide⟩, ⟨ocrRead_inv.2.1, by decide⟩, ocrRead_inv.2.2, by decide⟩

theorem witness_FinalizeDeselectsFillsAndSpeedsUp :
    finalize.resetIn = false ∧ finalize.phase = .iFinDeselect ∧ finalize.clk = .slow := by decide

/-- Both ends of INIT. -/
theorem witness_InitEndsFailedOrReady :
    ((cmd0Poll 499 0xFF).Inv ∧ (cmd0Poll 499 0xFF).reqOp = 1 ∧
        (nextState (step (cmd0Poll 499 0xFF))).map (·.phase) = some .idle) ∧
      initFast.Inv ∧ initFast.reqOp = 1 ∧ (nextState (step initFast)).map (·.phase) = some .idle :=
  ⟨⟨cmd0Poll_inv.2, rfl, by decide⟩, initFast_inv, rfl, by decide⟩

/-- The largest request and its buffer. -/
theorem witness_HostRequestsStartOperations :
    State.reset.phase = .idle ∧
      (0xFFFFFFFF : Word32).toNat * 512 ≤ ({ State.reset with bufLen := 2199023255040 } : State).bufLen := by decide

theorem witness_RequestsWithoutMeaningAreRefused :
    (busyWrite none).phase ≠ .idle ∧ State.reset.phase = .idle ∧
      ({ State.reset with bufLen := 511 } : State).bufLen < (1 : Word32).toNat * 512 := by decide

theorem witness_HostWritesWhileIdle :
    State.reset.resetIn = false ∧ State.reset.phase = .idle ∧ (0xFFFFFFFC : Word32).extractLsb' 0 2 = 0 ∧
      (1 : Word32).extractLsb' 0 2 = 1 ∧ (2 : Word32).extractLsb' 0 2 = 2 ∧ (0xFFFFFFFF : Word32).extractLsb' 0 2 = 3 ∧
      ({ State.reset with hostQueue := [.write .stat 0xFF] } : State).hostQueue = .write .stat 0xFF :: [] ∧
      ({ State.reset with hostQueue := [.pass] } : State).hostQueue = .pass :: [] := by decide

theorem witness_BoundBufferHoldsTheHostsBytes :
    ({ State.reset with hostQueue := [.bindBuffer [0x00, 0xAA]] } : State).hostQueue = .bindBuffer [0x00, 0xAA] :: [] ∧
      ([0x00, 0xAA] : List Byte)[1]? = some 0xAA := by decide

theorem witness_TransferOfNoSectorsIsOk : State.reset.resetIn = false ∧ State.reset.phase = .idle := by decide

theorem witness_TransfersSendTheCommandOfTheSector :
    ({ at_ .rHead [] with remain := 1 } : State).remain ≠ 0 ∧ State.reset.phase = .idle ∧
      (1 : Word32).toNat * 512 ≤ ({ State.reset with bufLen := 512 } : State).bufLen ∧ (at_ .rHead []).phase = .rHead ∧
      (at_ .wHead []).phase = .wHead ∧ (at_ .rCmd17 []).phase = .rCmd17 ∧ (at_ .wCmd24 []).phase = .wCmd24 := by decide

theorem witness_RejectedReadCommandEndsDeselected :
    (∃ s : State, s.resetIn = false ∧ s.phase = .fPoll ∧ s.ret = .rCmd17 ∧ s.tlen = 0 ∧ s.draw.msb = false ∧
        s.draw = 0x00) ∧
      ∃ s : State, s.resetIn = false ∧ s.phase = .fPoll ∧ s.ret = .rCmd17 ∧ s.tlen = 0 ∧ s.poll + 1 = 500 ∧
        s.draw ≠ 0x00 :=
  ⟨⟨framer .fPoll .rCmd17 [0x00], by decide⟩, ⟨{ framer .fPoll .rCmd17 [0xFF] with poll := 499 }, by decide⟩⟩

theorem witness_RejectedWriteCommandEndsDeselected :
    (∃ s : State, s.resetIn = false ∧ s.phase = .fPoll ∧ s.ret = .wCmd24 ∧ s.tlen = 0 ∧ s.draw.msb = false ∧
        s.draw = 0x00) ∧
      ∃ s : State, s.resetIn = false ∧ s.phase = .fPoll ∧ s.ret = .wCmd24 ∧ s.tlen = 0 ∧ s.poll + 1 = 500 ∧
        s.draw ≠ 0x00 :=
  ⟨⟨framer .fPoll .wCmd24 [0x00], by decide⟩, ⟨{ framer .fPoll .wCmd24 [0xFF] with poll := 499 }, by decide⟩⟩

theorem witness_ErrorExitDeselectsAndReturns :
    ((at_ .rErrDeselect []).resetIn = false ∧ (at_ .rErrDeselect []).phase = .rErrDeselect ∧
        (at_ .wErrDeselect []).phase = .wErrDeselect) ∧
      errorFiller.Inv ∧ errorFiller.reqOp ≠ 1 ∧ errorFiller.phase ≠ .idle ∧
      (nextState (step errorFiller)).map (fun s => (s.phase, s.result)) = some (.idle, .commandRejected) :=
  ⟨by decide, errorFiller_inv, by decide, by decide, by decide⟩

/-- RD-4: the token on the last poll. -/
theorem witness_TokenPollAcceptsTheStartToken :
    ∃ (s : State) (skipped rest : List Byte), s.resetIn = false ∧ s.phase = .rToken ∧ s.poll = 0 ∧
      s.card.script = skipped ++ 0xFE :: rest ∧ (∀ b ∈ skipped, b ≠ 0xFE) ∧ skipped.length = 65534 :=
  ⟨at_ .rToken (List.replicate 65534 0xFF ++ 0xFE :: []), List.replicate 65534 0xFF, [], rfl, rfl, rfl, rfl,
    fun b hb => by rw [List.eq_of_mem_replicate hb]; decide, List.length_replicate ..⟩

/-- RD-5. -/
theorem witness_TokenPollTimesOut :
    ∃ (s : State) (skipped rest : List Byte), s.resetIn = false ∧ s.phase = .rToken ∧ s.poll = 0 ∧
      s.card.script = skipped ++ rest ∧ (∀ b ∈ skipped, b ≠ 0xFE) ∧ skipped.length = 65535 :=
  ⟨at_ .rToken (List.replicate 65535 0xFF ++ [0xFE]), List.replicate 65535 0xFF, [0xFE], rfl, rfl, rfl, rfl,
    fun b hb => by rw [List.eq_of_mem_replicate hb]; decide, List.length_replicate ..⟩

/-- RD-7: 512 data bytes 0xFE, the buffer just large enough. -/
theorem witness_ReadStoresTheBlockInOrder :
    ∃ (s : State) (data rest : List Byte) (crc1 crc2 : Byte), s.resetIn = false ∧ s.phase = .rData ∧ s.idx = 0 ∧
      s.buf.WF ∧ s.offset + 512 = s.bufLen ∧ data.length = 512 ∧ s.card.script = data ++ crc1 :: crc2 :: rest :=
  ⟨{ at_ .rData (List.replicate 512 0xFE ++ 0x12 :: 0x34 :: []) with offset := 512, bufLen := 1024 },
    List.replicate 512 0xFE, [], 0x12, 0x34, rfl, rfl, rfl, by decide, rfl, List.length_replicate .., rfl⟩

theorem witness_CompletedSectorIsClosedAndCounted :
    (at_ .rEndDeselect []).phase = .rEndDeselect ∧ (at_ .wEndDeselect []).phase = .wEndDeselect ∧
      ({ at_ .rEndDeselect [] with remain := 1 } : State).remain = 1 ∧
      ({ at_ .rEndDeselect [] with remain := 0xFFFFFFFF } : State).remain ≠ 1 := by decide

/-- The closing filler of a sector that is not the last, and of the last sector number. -/
theorem witness_SectorFollowsOffset :
    sectorDone.Inv ∧ sectorDone.resetIn = false ∧ sectorDone.phase ≠ .idle ∧ sectorDone.reqOp ≠ 1 ∧
      (nextState (step sectorDone)).map (fun s => (s.sector, s.offset, s.remain)) = some (0, 1024, 1) :=
  ⟨sectorDone_inv, by decide, by decide, by decide, by decide⟩

theorem witness_WriteSendsTheBlockInOrder :
    ∃ s : State, s.resetIn = false ∧ s.phase = .wGap ∧ s.sel = true ∧ s.offset + 512 = s.bufLen :=
  ⟨{ at_ .wGap [] with sel := true, bufLen := 512 }, by decide⟩

/-- WR-1: 0xE5 accepts, 0x15 does not. -/
theorem witness_DataResponseDecidesTheWrite :
    (at_ .wResp [0xE5]).resetIn = false ∧ (at_ .wResp [0xE5]).phase = .wResp ∧
      (at_ .wResp [0xE5]).draw.extractLsb' 0 5 = 0b00101 ∧ (at_ .wResp [0x15]).draw.extractLsb' 0 5 ≠ 0b00101 := by decide

theorem witness_ABusyCardHangsTheWrite :
    ∃ s : State, s.resetIn = false ∧ s.phase = .wBusy ∧ s.par.writeBusyBound = none ∧ s.card.script = [] ∧
      s.card.forever = some 0x00 :=
  ⟨{ busyWrite none with card := { script := [], forever := some 0x00, drawn := 0 } }, by decide⟩

/-- WR-2 and WR-4: no busy byte, and a thousand. -/
theorem witness_BusyWaitEndsAtTheFirstOtherByte :
    ((at_ .wResp [0x25]).phase = .wResp ∧ (at_ .wResp [0x25]).draw.extractLsb' 0 5 = 0b00101) ∧
    ∀ n : Nat, ∃ (s : State) (b : Byte) (rest : List Byte), s.resetIn = false ∧ s.phase = .wBusy ∧
      s.par.writeBusyBound = none ∧ b ≠ 0x00 ∧ s.card.script = List.replicate n 0x00 ++ b :: rest :=
  ⟨by decide, fun n =>
    ⟨{ busyWrite none with card := { script := List.replicate n 0x00 ++ 0x80 :: [], forever := none, drawn := 0 } },
      0x80, [], rfl, rfl, rfl, by decide, rfl⟩⟩

/-- A bound of 3: entering, WR-9 (the last poll answers), WR-8 (it does not). -/
theorem witness_BoundedBusyWaitTimesOut :
    (∃ s : State, s.par.writeBusyBound = some 3 ∧ s.phase = .wResp ∧ s.draw.extractLsb' 0 5 = 0b00101) ∧
      (∃ (s : State) (rest : List Byte), s.par.writeBusyBound = some 3 ∧ s.phase = .wBusy ∧ s.poll = 0 ∧
        s.card.script = List.replicate 2 0x00 ++ 0xFF :: rest) ∧
      ∃ (s : State) (rest : List Byte), s.par.writeBusyBound = some 3 ∧ s.phase = .wBusy ∧ s.poll = 0 ∧
        s.card.script = List.replicate 3 0x00 ++ rest :=
  ⟨⟨{ busyWrite (some 3) with phase := .wResp, card := { script := [0x05], forever := none, drawn := 0 } }, by decide⟩,
    ⟨{ busyWrite (some 3) with card := { script := [0x00, 0x00, 0xFF], forever := none, drawn := 0 } }, [], by decide⟩,
    ⟨{ busyWrite (some 3) with card := { script := [0x00, 0x00, 0x00], forever := none, drawn := 0 } }, [], by decide⟩⟩

theorem witness_SentTokensComplete :
    ({ at_ .rData [] with bufLen := 512, idx := 511 } : State).offset + 511 < 512 ∧ (at_ .wGap []).phase ≠ .rData := by decide

theorem witness_FillerWritesOnlyTheRegistersOfItsPoint :
    (∃ t, exec .filler (at_ .wGap [0x00]) = .next t) ∧ (∃ t, exec .filler (cmd0Poll 499 0xFF) = .next t) ∧
      ∃ t, exec .filler { framer .fTrail .iCmd58 [0x01] with idx := 3 } = .next t := ⟨⟨_, rfl⟩, ⟨_, rfl⟩, ⟨_, rfl⟩⟩

theorem witness_R1TokensComplete : (Instr.r1Valid 0x7F).wf = true ∧ (Instr.r1Valid 0x00).wf = true := by decide

theorem witness_DataTokensComplete :
    (Instr.dataAccepted 0x05).wf = true ∧ (busyWrite none).par.writeBusyBound ≠ some ((busyWrite none).poll + 1) ∧
      (busyWrite (some 2)).par.writeBusyBound ≠ some ((busyWrite (some 2)).poll + 1) := by decide

theorem witness_TrailTokensComplete : (Instr.ocrCcs 0x40).wf = true ∧ (Instr.ocrCcs 0xFF).wf = true := by decide

end Sys2Proof.Test
end

section
/-! PROOFS. The initialization sequencer (42_init_sequencer.md): the branch after CMD8 and the finalize step. -/

namespace Sys2Proof.Machine

/-! ## The branch after CMD8 -/

/-- The v2 test as the propositions of R185. -/
theorem State.v2Test_iff (s : State) :
    s.v2Test = true ↔ s.r1 = 0x01 ∧ s.trail.get 2 = 0x01 ∧ s.trail.get 3 = 0xAA := by
  simp only [State.v2Test, Bool.and_eq_true, beq_iff_eq, and_assoc]

/-- The last trailing byte of CMD8 (R154, R35): TRAIL[3] is written and INIT goes on after CMD8. -/
theorem State.storeTrail_last_iCmd8 (rx : Byte) (s : State) (hret : s.ret = .iCmd8) (htlen : s.tlen = 4) :
    s.storeTrail 3 rx = ({ s with trail := s.trail.set 3 rx, idx := 4 } : State).afterCmd8 := by
  rw [State.storeTrail_frame, htlen, if_neg (by decide)]
  simp only [State.resume, hret]

/-- The v2 test once TRAIL[3] is the byte received: TRAIL[2] is the byte held before. -/
theorem State.afterCmd8_v2_iff (rx : Byte) (s : State) :
    ({ s with trail := s.trail.set 3 rx, idx := 4 } : State).afterCmd8.v2 = true ↔
      s.r1 = 0x01 ∧ s.trail.get 2 = 0x01 ∧ rx = 0xAA := by
  simp [State.afterCmd8, State.v2Test_iff, Trail.get_set]

/-- Settles O27: the step stores TRAIL[3] and continues after CMD8, where V2 becomes the v2 test of R185. -/
theorem cmd8AnswerChoosesTheBranch : Obligations.Cmd8AnswerChoosesTheBranch := by
  intro s hr hp hret htlen hidx
  have hstep := step_at_fTrail s hr hp
  rw [hidx, State.storeTrail_last_iCmd8 _ _ (by simpa using hret) (by simpa using htlen)] at hstep
  refine ⟨_, hstep, rfl, rfl, by simp [State.afterCmd8], by simp [State.afterCmd8], ?_⟩
  simpa using State.afterCmd8_v2_iff s.draw (s.arrive.exchangeWith Config.filler s.draw)

/-! ## The finalize step -/

@[simp] theorem State.initReady_sel (s : State) : s.initReady.sel = s.sel := rfl
@[simp] theorem State.initReady_clk (s : State) : s.initReady.clk = .fast := rfl
@[simp] theorem State.initReady_capacityClass (s : State) : s.initReady.capacityClass = s.capacityClass := rfl
@[simp] theorem State.initReady_trace (s : State) : s.initReady.trace = s.trace := rfl

/-- The last two steps of INIT (R191): a filler exchange with the lines as they stand, then the fast clock. -/
theorem run_from_iFinFiller (s : State) (hr : s.resetIn = false) (hp : s.phase = .iFinFiller) :
    run 2 s = .next
      ({ s.arrive.exchangeWith Config.filler s.draw with phase := .iFinFast } : State).arrive.initReady := by
  rw [run_succ 1 (step_at_iFinFiller s hr hp), run_one]
  exact step_at_iFinFast _ (by simpa using hr) rfl

/-- Settles O31: the deselect of I_FIN_DESELECT, then the two steps from I_FIN_FILLER. -/
theorem finalizeDeselectsFillsAndSpeedsUp : Obligations.FinalizeDeselectsFillsAndSpeedsUp := by
  intro s hr hp hclk
  have hrun : run 3 s = _ :=
    (run_succ 2 (step_at_iFinDeselect s hr hp)).trans (run_from_iFinFiller _ (by simpa using hr) rfl)
  exact ⟨_, hrun, by simp, by simp, by simp, by simp [State.draw, hclk]⟩

end Sys2Proof.Machine
end

section
/-! PROOFS. The block transfer engine (43_block_transfer.md): the error exit and the points that leave through it. -/

namespace Sys2Proof.Machine

/-! ## What the host writes leaves the rest -/

@[simp] theorem State.hostOf_phase (h s : State) : (h.hostOf s).phase = s.phase := rfl
@[simp] theorem State.hostOf_result (h s : State) : (h.hostOf s).result = s.result := rfl
@[simp] theorem State.hostOf_sel (h s : State) : (h.hostOf s).sel = s.sel := rfl
@[simp] theorem State.hostOf_clk (h s : State) : (h.hostOf s).clk = s.clk := rfl
@[simp] theorem State.hostOf_capacityClass (h s : State) : (h.hostOf s).capacityClass = s.capacityClass := rfl
@[simp] theorem State.hostOf_initialized (h s : State) : (h.hostOf s).initialized = s.initialized := rfl
@[simp] theorem State.hostOf_resp (h s : State) : (h.hostOf s).resp = s.resp := rfl
@[simp] theorem State.hostOf_buf (h s : State) : (h.hostOf s).buf = s.buf := rfl
@[simp] theorem State.hostOf_trace (h s : State) : (h.hostOf s).trace = s.trace := rfl

/-! ## The error exit (R225) -/

/-- Where the filler of the error exit is exchanged. -/
def Engine.errFiller : Engine → Phase
  | .read => .rErrFiller
  | .write => .wErrFiller

/-- The call site whose answer an operation waits for. -/
def Engine.caller : Engine → RetPoint
  | .read => .rCmd17
  | .write => .wCmd24

theorem Engine.errDeselect_ne_idle (e : Engine) : e.errDeselect ≠ .idle := by cases e <;> decide

theorem Engine.errFiller_ne_idle (e : Engine) : e.errFiller ≠ .idle := by cases e <;> decide

theorem step_at_errDeselect (e : Engine) (s : State) (hr : s.resetIn = false) (hp : s.phase = e.errDeselect) :
    step s = .next { s.arrive.deselect with phase := e.errFiller } := by
  cases e with
  | read => exact step_at_rErrDeselect s hr hp
  | write => exact step_at_wErrDeselect s hr hp

theorem step_at_errFiller (e : Engine) (s : State) (hr : s.resetIn = false) (hp : s.phase = e.errFiller) :
    step s = .next (s.arrive.exchangeWith Config.filler s.draw).returnError := by
  cases e with
  | read => exact step_at_rErrFiller s hr hp
  | write => exact step_at_wErrFiller s hr hp

/-- What the error exit does to a state, the host aside: deselect, one filler, `return E`. -/
def State.errorExit (s : State) : State := (s.deselect.exchangeWith Config.filler s.draw).finish s.err

/-- The state with no access of the host pending. -/
def State.quiet (s : State) : State := { s with hostQueue := [] }

@[simp] theorem State.quiet_buf (s : State) : s.quiet.buf = s.buf := rfl
@[simp] theorem State.quiet_offset (s : State) : s.quiet.offset = s.offset := rfl

/-- A state is its quiet part beside what its host writes. -/
theorem State.hostOf_quiet (s : State) : s = s.hostOf s.quiet := rfl

/-- The two steps of the error exit, beside the host's accesses. -/
theorem run_errorExit (e : Engine) (s : State) (hr : s.resetIn = false) (hp : s.phase = e.errDeselect) :
    run 2 s = .next ((s.arrivals 2).hostOf s.errorExit) := by
  have hdeselect : run 1 s.quiet = _ := (run_one _).trans (step_at_errDeselect e s.quiet hr hp)
  have hfiller := step_at_errFiller e { s.quiet.arrive.deselect with phase := e.errFiller }
    ((State.arrive_resetIn _).trans hr) rfl
  rw [State.arrive_nil s.quiet rfl] at hdeselect hfiller
  rw [State.arrive_nil _ rfl] at hfiller
  exact run_hostOf_last 1 s s.quiet _ s.quiet.errorExit s.hostOf_quiet rfl hr hdeselect e.errFiller_ne_idle hfiller

/-- A step that takes an error ends the operation in three steps. -/
theorem run_of_takeError (e : Engine) (r : Result) (s u : State) (hr : u.resetIn = false)
    (hs : step s = .next (u.takeError e r)) :
    run 3 s = .next (((u.takeError e r).arrivals 2).hostOf (u.takeError e r).errorExit) :=
  (run_succ 2 hs).trans (run_errorExit e _ hr rfl)

/-! ## The answer to the command of a sector (R232, R242) -/

/-- The last exchange of an R1 poll with no trailing bytes: the caller goes on (R153, R154). -/
theorem State.pollR1_ends (rx : Byte) (s : State) (htlen : s.tlen = 0) (hend : rx.msb = false ∨ s.poll + 1 = 500) :
    s.pollR1 rx = ({ s with poll := s.poll + 1, r1 := rx, idx := 0 } : State).resume := by
  have hcond : endsR1Poll rx = true ∨ s.poll + 1 = Config.nCmdPoll := by
    simpa only [endsR1Poll, Bool.not_eq_true'] using hend
  unfold State.pollR1 State.endPoll
  simp [hcond, htlen]

/-- `R1` other than 0x00 is CommandRejected for either engine. -/
theorem State.resume_rejected (e : Engine) (s : State) (hret : s.ret = e.caller) (h : s.r1 ≠ 0x00) :
    s.resume = s.takeError e .commandRejected := by
  cases e <;> simp only [State.resume, hret, Engine.caller, State.afterCmd17, State.afterCmd24, if_neg h]

theorem step_at_lastPoll (s : State) (hr : s.resetIn = false) (hp : s.phase = .fPoll) (htlen : s.tlen = 0)
    (hend : s.draw.msb = false ∨ s.poll + 1 = 500) :
    step s = .next ({ s.arrive.exchangeWith Config.filler s.draw with
      poll := s.poll + 1, r1 := s.draw, idx := 0 } : State).resume := by
  rw [step_at_fPoll s hr hp, State.pollR1_ends _ _ (by simpa using htlen) (by simpa using hend)]
  simp

/-- A rejected sector command ends the operation in three steps, with one filler more (R232, R242). -/
theorem rejectedCommand_ends (e : Engine) (s : State) (hr : s.resetIn = false) (hp : s.phase = .fPoll)
    (hret : s.ret = e.caller) (htlen : s.tlen = 0) (hend : s.draw.msb = false ∨ s.poll + 1 = 500) (h0 : s.draw ≠ 0x00) :
    ∃ t : State, run 3 s = .next t ∧ t.phase = .idle ∧ t.result = .commandRejected ∧ t.sel = false ∧
      t.clk = s.clk ∧ t.capacityClass = s.capacityClass ∧ t.initialized = s.initialized ∧ t.buf = s.buf ∧
      t.trace = s.trace ++ [{ tx := Config.filler, rx := s.draw, sel := s.sel, clk := s.clk },
        { tx := Config.filler, rx := s.card.advance.next, sel := false, clk := s.clk }] := by
  have hstep := step_at_lastPoll s hr hp htlen hend
  rw [State.resume_rejected e _ (by simpa using hret) h0] at hstep
  have hbuf : s.arrive.buf = s.buf := (s.arrive_buffer (by simp [hp])).1
  refine ⟨_, run_of_takeError e _ s _ (by simpa using hr) hstep, ?_⟩
  simp [State.errorExit, State.draw, hbuf]

/-- Settles O42: 0x00 goes on to the token poll, any other answer takes the error exit. -/
theorem rejectedReadCommandEndsDeselected : Obligations.RejectedReadCommandEndsDeselected := by
  intro s hr hp hret htlen hend
  refine ⟨fun h0 => ⟨_, step_at_lastPoll s hr hp htlen hend, ?_⟩, rejectedCommand_ends .read s hr hp hret htlen hend⟩
  simp [State.resume, hret, State.afterCmd17, h0]

/-- Settles O43: 0x00 goes on to the data packet, any other answer takes the error exit. -/
theorem rejectedWriteCommandEndsDeselected : Obligations.RejectedWriteCommandEndsDeselected := by
  intro s hr hp hret htlen hend
  refine ⟨fun h0 => ⟨_, step_at_lastPoll s hr hp htlen hend, ?_⟩, rejectedCommand_ends .write s hr hp hret htlen hend⟩
  simp [State.resume, hret, State.afterCmd24, h0]

/-! ## The data response (R244) -/

/-- The test of the data-response token is on its low five bits (R98). -/
theorem accepted_iff (resp : Byte) : accepted resp = true ↔ resp.extractLsb' 0 5 = 0b00101 := by
  have hmask : resp.toNat &&& 31 = resp.toNat % 32 := Nat.and_two_pow_sub_one_eq_mod resp.toNat 5
  simp [accepted, ← BitVec.toNat_inj, hmask]

@[simp] theorem State.enterBusy_phase (s : State) : s.enterBusy.phase = .wBusy := by
  unfold State.enterBusy; split <;> rfl
@[simp] theorem State.enterBusy_resp (s : State) : s.enterBusy.resp = s.resp := by
  unfold State.enterBusy; split <;> rfl
@[simp] theorem State.enterBusy_trace (s : State) : s.enterBusy.trace = s.trace := by
  unfold State.enterBusy; split <;> rfl

/-- Settles O50: the token read decides between the busy-wait and the error exit. -/
theorem dataResponseDecidesTheWrite : Obligations.DataResponseDecidesTheWrite := by
  intro s hr hp
  have hstep := step_at_wResp s hr hp
  simp only [State.judgeResponse, accepted_iff] at hstep
  constructor
  · intro hacc
    rw [if_pos hacc] at hstep
    exact ⟨_, hstep, by simp⟩
  · intro hrej
    rw [if_neg hrej] at hstep
    exact ⟨_, run_of_takeError .write _ s _ (by simpa using hr) hstep, by simp [State.errorExit, State.draw]⟩

/-! ## How an operation ends (R225, R270) -/

/-- Only CMD0's answer ends an operation at once (R183). -/
theorem State.resume_idle (s : State) (h : s.resume.phase = .idle) : s.ret = .iCmd0 := by
  unfold State.resume at h
  cases hret : s.ret <;>
    simp only [hret, State.afterCmd8, State.afterCmd55, State.afterCmd41, State.afterCmd58, State.afterCmd17,
      State.afterCmd24, State.leaveLoop, reduceCtorEq] at h ⊢
  all_goals (repeat' split at h) <;> cases h

/-- The poll of a response goes on or hands over to the caller, so an operation it ends is INIT at CMD0. -/
theorem State.pollR1_idle (rx : Byte) (s : State) (hp : s.phase ≠ .idle) (h : (s.pollR1 rx).phase = .idle) :
    s.ret = .iCmd0 := by
  unfold State.pollR1 State.endPoll at h
  dsimp only at h
  split at h
  · split at h
    · cases h
    · exact State.resume_idle { s with poll := s.poll + 1, r1 := rx, idx := 0 } h
  · exact absurd h hp

theorem State.storeTrail_idle (j : Nat) (rx : Byte) (s : State) (h : (s.storeTrail j rx).phase = .idle) :
    s.ret = .iCmd0 := by
  rw [State.storeTrail_frame] at h
  split at h
  · cases h
  · exact State.resume_idle { s with trail := s.trail.set j rx, idx := j + 1 } h

/-- After a completed sector the operation ends with OK or not at all (R221). -/
theorem State.nextSector_idle (e : Engine) (s : State) (h : (s.nextSector e).phase = .idle) :
    (s.nextSector e).result = .ok := by
  unfold State.nextSector at h ⊢
  split
  · rfl
  · rename_i hmore
    rw [if_neg hmore] at h
    cases e <;> cases h

/-- Where and how the exchange of a program point ends the operation: the answer of CMD0, the filler that closes the last
sector, the filler of the error exit. -/
theorem State.receive_idle (rx : Byte) (s t : State) (hp : s.phase ≠ .idle) (h : s.receive rx = .next t)
    (ht : t.phase = .idle) :
    ((s.phase = .fPoll ∨ s.phase = .fTrail) ∧ s.ret = .iCmd0) ∨
      ((s.phase = .rEndFiller ∨ s.phase = .wEndFiller) ∧ t.result = .ok) ∨
      (s.phase = .rErrFiller ∨ s.phase = .wErrFiller) := by
  unfold State.receive at h
  cases hphase : s.phase <;> simp only [hphase] at h
  case rData =>
    split at h
    · rename_i u hu
      obtain ⟨-, rfl⟩ : s.offset + s.idx < s.bufLen ∧ { s with buf := s.buf.write (s.offset + s.idx) rx } = u := by
        simpa [State.bufWrite] using hu
      injection h with h
      subst h
      unfold State.afterReadByte at ht
      dsimp only at ht
      split at ht
      · exact absurd ht hp
      · cases ht
    · cases h
  all_goals
    injection h with h
    subst h
  case fPoll => exact .inl ⟨.inl rfl, State.pollR1_idle rx s hp ht⟩
  case fTrail => exact .inl ⟨.inr rfl, State.storeTrail_idle s.idx rx s ht⟩
  case rEndFiller => exact .inr (.inl ⟨.inl rfl, State.nextSector_idle .read _ ht⟩)
  case wEndFiller => exact .inr (.inl ⟨.inr rfl, State.nextSector_idle .write _ ht⟩)
  case rErrFiller => exact .inr (.inr (.inl rfl))
  case wErrFiller => exact .inr (.inr (.inr rfl))
  case idle => exact absurd hphase hp
  case wBusy =>
    unfold State.busyWait at ht
    split at ht <;> simp [hphase, apply_ite State.phase, ite_eq_iff, Engine.errDeselect] at ht
  all_goals
    simp [hphase, apply_ite State.phase, ite_eq_iff, State.afterFrameByte, State.afterPowerup, State.pollToken,
      State.afterReadCrc, State.afterStartToken, State.afterWriteByte, State.afterWriteCrc, State.judgeResponse,
      Engine.errDeselect] at ht

/-- The step that ends an operation: at an exchange as `State.receive_idle` says, the lines unmoved; at INIT's last point;
at the head of a transfer of no sectors. -/
theorem step_idle (s t : State) (hr : s.resetIn = false) (hp : s.phase ≠ .idle) (hf : s.phase ≠ .fSelect)
    (h : step s = .next t) (ht : t.phase = .idle) :
    (((s.phase = .fPoll ∨ s.phase = .fTrail) ∧ s.ret = .iCmd0) ∨ s.phase = .iFinFast) ∨
      ((s.phase = .rHead ∨ s.phase = .wHead) ∧ t.result = .ok) ∨
      ((s.phase = .rEndFiller ∨ s.phase = .wEndFiller) ∧ t.result = .ok ∧ t.sel = s.sel) ∨
      ((s.phase = .rErrFiller ∨ s.phase = .wErrFiller) ∧ t.sel = s.sel) := by
  have hexchange (tx : Byte) (hx : s.arrive.exchangeAndReceive tx = .next t) :
      ((s.phase = .fPoll ∨ s.phase = .fTrail) ∧ s.ret = .iCmd0) ∨
        ((s.phase = .rEndFiller ∨ s.phase = .wEndFiller) ∧ t.result = .ok ∧ t.sel = s.sel) ∨
        ((s.phase = .rErrFiller ∨ s.phase = .wErrFiller) ∧ t.sel = s.sel) := by
    have hsel : t.sel = s.sel := (State.receive_frame _ _ _ hx).sel.trans s.arrive_sel
    have hends := State.receive_idle _ _ t (by simpa [State.exchange] using hp) hx ht
    simpa [State.exchange, hsel] using hends
  have hhead (p : RetPoint)
      (hx : Host.Outcome.next (if s.arrive.remain = 0 then s.arrive.finish .ok else s.arrive.callCommand p) =
        (.next t : Host.Outcome State Fault Refusal)) : t.result = .ok := by
    injection hx with hx
    subst hx
    split at ht
    · rw [if_pos ‹_›, State.finish_result]
    · cases ht
  rw [step_eq s hr hp hf] at h
  unfold State.pointStep at h
  rw [State.arrive_phase] at h
  obtain ⟨p, hphase⟩ : ∃ p, s.phase = p := ⟨_, rfl⟩
  rw [hphase] at h
  cases p <;> dsimp only at h
  case idle => exact absurd hphase hp
  case fSelect => exact absurd hphase hf
  case iFinFast => exact .inl (.inr hphase)
  case rHead => exact .inr (.inl ⟨.inl hphase, hhead _ h⟩)
  case wHead => exact .inr (.inl ⟨.inr hphase, hhead _ h⟩)
  case wData =>
    unfold State.sendDataByte at h
    split at h
    · exact (hexchange _ h).imp .inl .inr
    · cases h
  case fTx | fPoll | fTrail | iPowerup | iFinFiller | rToken | rData | rCrc | rEndFiller | rErrFiller | wGap | wToken |
      wCrc | wResp | wBusy | wEndFiller | wErrFiller => exact (hexchange _ h).imp .inl .inr
  all_goals
    injection h with h
    subst h
    cases ht

/-- The caller that CMD0's answer goes back to is INIT (R180). -/
theorem State.callerOk_iCmd0 (s : State) (h : s.callerOk = true) (hret : s.ret = .iCmd0) : s.reqOp = 1 := by
  simp only [State.callerOk, hret, State.initOk, Bool.and_eq_true, beq_iff_eq] at h
  obtain ⟨⟨⟨hop, -⟩, -⟩, -⟩ := h
  exact hop

/-- In a state of the invariant the points that end INIT alone are INIT's. -/
theorem State.Inv.reqOp_of_initEnd {s : State} (hinv : s.Inv)
    (h : ((s.phase = .fPoll ∨ s.phase = .fTrail) ∧ s.ret = .iCmd0) ∨ s.phase = .iFinFast) : s.reqOp = 1 := by
  have hpoint := hinv.point
  unfold State.pointOk at hpoint
  rcases h with ⟨hframer, hret⟩ | hfast
  · have hcaller : s.callerOk = true := by
      rcases hframer with h | h <;> simp [h, State.framerOk] at hpoint <;> tauto
    exact s.callerOk_iCmd0 hcaller hret
  · simp [hfast] at hpoint
    tauto

/-- In a state of the invariant a closing filler is exchanged with the card deselected (R132). -/
theorem State.Inv.deselected_of_closingFiller {s : State} (hinv : s.Inv)
    (h : s.phase = .rEndFiller ∨ s.phase = .wEndFiller ∨ s.phase = .rErrFiller ∨ s.phase = .wErrFiller) :
    s.sel = false := by
  have hpoint := hinv.point
  unfold State.pointOk at hpoint
  rcases h with h | h | h | h <;> simp [h] at hpoint <;> tauto

/-- Beside what the host writes, the error exit writes the program point, the result, the select line and what an exchange
writes. -/
theorem State.errorExit_frame (s : State) (h : s.phase ≠ .idle) :
    (s.arrivals 2).hostOf s.errorExit = { s.arrivals 2 with
      phase := s.errorExit.phase, result := s.errorExit.result, results := s.errorExit.results, sel := s.errorExit.sel
      trace := s.errorExit.trace, card := s.errorExit.card, ser := s.errorExit.ser } := by
  rw [State.arrivals_eq 2 s h]
  rfl

/-- Settles O44: the two steps of the exit, and the inversion of the step that ends an operation. -/
theorem errorExitDeselectsAndReturns : Obligations.ErrorExitDeselectsAndReturns := by
  refine ⟨fun s hr hp => ?_, fun s t hinv hr hop hbusy hstep ht => ?_⟩
  · obtain ⟨e, he⟩ : ∃ e : Engine, s.phase = e.errDeselect := hp.elim (⟨.read, ·⟩) (⟨.write, ·⟩)
    exact ⟨_, run_errorExit e s hr he, rfl, rfl, rfl, rfl, rfl, s.errorExit_frame (he ▸ e.errDeselect_ne_idle)⟩
  · have hf : s.phase ≠ .fSelect := fun hf => by simpa [State.pointOk, hf] using hinv.point
    rcases step_idle s t hr hbusy hf hstep ht with hinit | ⟨hhead, hok⟩ | ⟨hlast, hok, hsel⟩ | ⟨herr, hsel⟩
    · exact absurd (hinv.reqOp_of_initEnd hinit) hop
    · exact ⟨fun h => absurd hok h, fun hr hw => absurd hhead (by simp [hr, hw])⟩
    · exact ⟨fun h => absurd hok h, fun _ _ => hsel.trans (hinv.deselected_of_closingFiller (by tauto))⟩
    · exact ⟨fun _ => herr, fun _ _ => hsel.trans (hinv.deselected_of_closingFiller (by tauto))⟩

end Sys2Proof.Machine
end

section
/-! PROOFS. The data packets of the block transfer engine (43_block_transfer.md): a block is a sequence of exchanges. -/

namespace Sys2Proof.Machine

/-! ## Sequences of exchanges -/

/-- The exchanges that send the bytes of a list, in order. -/
def State.exchangeAll (txs : List Byte) (s : State) : State := txs.foldl (fun u tx => u.exchange tx) s

/-- The sequencer's program point: PHASE and IDX. -/
def State.atPoint (p : Phase) (i : Nat) (s : State) : State := { s with phase := p, idx := i }

/-- Other buffer bytes. -/
def State.withBuf (m : Memory) (s : State) : State := { s with buf := m }

@[simp] theorem State.exchange_resetIn (tx : Byte) (s : State) : (s.exchange tx).resetIn = s.resetIn := rfl
@[simp] theorem State.exchange_hostQueue (tx : Byte) (s : State) : (s.exchange tx).hostQueue = s.hostQueue := rfl
@[simp] theorem State.exchange_offset (tx : Byte) (s : State) : (s.exchange tx).offset = s.offset := rfl
@[simp] theorem State.exchange_buf (tx : Byte) (s : State) : (s.exchange tx).buf = s.buf := rfl
@[simp] theorem State.exchange_bufLen (tx : Byte) (s : State) : (s.exchange tx).bufLen = s.bufLen := rfl
@[simp] theorem State.exchange_script (tx : Byte) (s : State) :
    (s.exchange tx).card.script = s.card.script.tail := rfl

@[simp] theorem State.atPoint_sel (p : Phase) (i : Nat) (s : State) : (s.atPoint p i).sel = s.sel := rfl
@[simp] theorem State.atPoint_trace (p : Phase) (i : Nat) (s : State) : (s.atPoint p i).trace = s.trace := rfl
@[simp] theorem State.atPoint_hostQueue (p : Phase) (i : Nat) (s : State) :
    (s.atPoint p i).hostQueue = s.hostQueue := rfl
@[simp] theorem State.atPoint_resetIn (p : Phase) (i : Nat) (s : State) : (s.atPoint p i).resetIn = s.resetIn := rfl

theorem State.atPoint_self (s : State) (p : Phase) (i : Nat) (hp : s.phase = p) (hi : s.idx = i) :
    s.atPoint p i = s := by
  rw [State.atPoint, ← hp, ← hi]

@[simp] theorem State.withBuf_resetIn (m : Memory) (s : State) : (s.withBuf m).resetIn = s.resetIn := rfl
@[simp] theorem State.withBuf_hostQueue (m : Memory) (s : State) : (s.withBuf m).hostQueue = s.hostQueue := rfl
@[simp] theorem State.withBuf_offset (m : Memory) (s : State) : (s.withBuf m).offset = s.offset := rfl
@[simp] theorem State.withBuf_buf (m : Memory) (s : State) : (s.withBuf m).buf = m := rfl
@[simp] theorem State.withBuf_bufLen (m : Memory) (s : State) : (s.withBuf m).bufLen = s.bufLen := rfl
@[simp] theorem State.withBuf_card (m : Memory) (s : State) : (s.withBuf m).card = s.card := rfl
@[simp] theorem State.withBuf_withBuf (m m' : Memory) (s : State) : (s.withBuf m).withBuf m' = s.withBuf m' := rfl

theorem State.hostOf_atPoint (h s : State) (p : Phase) (i : Nat) :
    h.hostOf (s.atPoint p i) = (h.hostOf s).atPoint p i := rfl

theorem State.hostOf_withBuf (h s : State) (m : Memory) : h.hostOf (s.withBuf m) = (h.hostOf s).withBuf m := rfl

theorem State.exchangeAll_nil (s : State) : s.exchangeAll [] = s := rfl

theorem State.exchangeAll_cons (tx : Byte) (txs : List Byte) (s : State) :
    s.exchangeAll (tx :: txs) = (s.exchange tx).exchangeAll txs := by
  simp only [State.exchangeAll, List.foldl_cons]

theorem State.exchangeAll_append (txs txs' : List Byte) (s : State) :
    s.exchangeAll (txs ++ txs') = (s.exchangeAll txs).exchangeAll txs' := List.foldl_append ..

/-- An exchange neither reads nor writes the buffer. -/
theorem State.exchangeAll_withBuf (txs : List Byte) (m : Memory) (s : State) :
    (s.withBuf m).exchangeAll txs = (s.exchangeAll txs).withBuf m := by
  induction txs generalizing s with
  | nil => rfl
  | cons tx txs ih => exact ih (s.exchange tx)

/-- Exchanges write the serializer, the trace and the environment, nothing else. -/
theorem State.exchangeAll_frame (txs : List Byte) (s : State) :
    s.exchangeAll txs = { s with
      ser := (s.exchangeAll txs).ser, trace := (s.exchangeAll txs).trace, card := (s.exchangeAll txs).card } := by
  induction txs generalizing s with
  | nil => rfl
  | cons tx txs ih => exact ih (s.exchange tx)

/-- The records of a sequence of exchanges: the bytes sent, with the lines as they stand (R130). -/
theorem State.exchangeAll_sent (txs : List Byte) (s : State) :
    ∃ sent : List Xfer, (s.exchangeAll txs).trace = s.trace ++ sent ∧ sent.map Xfer.tx = txs ∧
      ∀ x ∈ sent, x.sel = s.sel ∧ x.clk = s.clk := by
  induction txs generalizing s with
  | nil => exact ⟨[], by simp [State.exchangeAll]⟩
  | cons tx txs ih =>
    obtain ⟨sent, htrace, htx, hlines⟩ := ih (s.exchange tx)
    refine ⟨{ tx := tx, rx := s.draw, sel := s.sel, clk := s.clk } :: sent, ?_, by simp [htx], ?_⟩
    · rw [State.exchangeAll_cons, htrace]
      simp [State.exchange]
    · exact List.forall_mem_cons.2 ⟨⟨rfl, rfl⟩, hlines⟩

/-- The next byte of a script is the draw. -/
theorem State.draw_of_script (s : State) (b : Byte) (rest : List Byte) (h : s.card.script = b :: rest) : s.draw = b := by
  simp [State.draw, CardSource.next, h]

/-- The records of exchanges that send one byte each time, and receive the bytes of a script. -/
theorem State.exchangeAll_received (tx : Byte) (received rest : List Byte) (s : State)
    (h : s.card.script = received ++ rest) :
    (s.exchangeAll (List.replicate received.length tx)).trace = s.trace ++ xfers tx s.sel s.clk received := by
  induction received generalizing s with
  | nil => simp [State.exchangeAll, xfers]
  | cons b received ih =>
    have hdraw : s.draw = b := s.draw_of_script b _ h
    rw [List.length_cons, List.replicate_succ, State.exchangeAll_cons, ih _ (by rw [State.exchange_script, h]; rfl)]
    simp [State.exchange, xfers, hdraw]

/-- Beside what the host writes, exchanges write the serializer, the trace and the environment. -/
theorem State.hostOf_exchangeAll (a s : State) (txs : List Byte) (ha : a = a.hostOf s) :
    a.hostOf (s.quiet.exchangeAll txs) = { a with
      trace := (s.quiet.exchangeAll txs).trace, card := (s.quiet.exchangeAll txs).card
      ser := (s.quiet.exchangeAll txs).ser } := by
  rw [ha, State.exchangeAll_frame]
  rfl

/-! ## Runs with nothing from outside -/

/-- No reset and no access of the host is pending. -/
structure State.IsQuiet (s : State) : Prop where
  resetIn : s.resetIn = false
  hostQueue : s.hostQueue = []

theorem State.isQuiet_quiet (s : State) (hr : s.resetIn = false) : s.quiet.IsQuiet := ⟨hr, rfl⟩

theorem State.IsQuiet.arrive {s : State} (h : s.IsQuiet) : s.arrive = s := s.arrive_nil h.hostQueue

theorem State.IsQuiet.exchange {s : State} (h : s.IsQuiet) (tx : Byte) : (s.exchange tx).IsQuiet :=
  ⟨(s.exchange_resetIn tx).trans h.resetIn, (s.exchange_hostQueue tx).trans h.hostQueue⟩

theorem State.IsQuiet.exchangeAll {s : State} (h : s.IsQuiet) (txs : List Byte) : (s.exchangeAll txs).IsQuiet := by
  rw [State.exchangeAll_frame]
  exact ⟨h.resetIn, h.hostQueue⟩

theorem State.IsQuiet.withBuf {s : State} (h : s.IsQuiet) (m : Memory) : (s.withBuf m).IsQuiet :=
  ⟨(s.withBuf_resetIn m).trans h.resetIn, (s.withBuf_hostQueue m).trans h.hostQueue⟩

theorem State.IsQuiet.atPoint {s : State} (h : s.IsQuiet) (p : Phase) (i : Nat) : (s.atPoint p i).IsQuiet :=
  ⟨(s.atPoint_resetIn p i).trans h.resetIn, (s.atPoint_hostQueue p i).trans h.hostQueue⟩

/-! ## Storing a block -/

/-- Memory with the bytes of a list stored from an address on. -/
def Memory.writeFrom : Memory → Nat → List Byte → Memory
  | m, _, [] => m
  | m, a, b :: bs => Memory.writeFrom (Memory.write m a b) (a + 1) bs

theorem Memory.writeFrom_nil (m : Memory) (a : Nat) : m.writeFrom a [] = m := rfl

theorem Memory.writeFrom_cons (m : Memory) (a : Nat) (b : Byte) (bs : List Byte) :
    m.writeFrom a (b :: bs) = (m.write a b).writeFrom (a + 1) bs := rfl

/-- Every address the list does not reach keeps its byte. -/
theorem Memory.read_writeFrom_outside (m : Memory) (a : Nat) (bs : List Byte) (x : Nat) (h : m.WF)
    (hx : x < a ∨ a + bs.length ≤ x) : (m.writeFrom a bs).read x = m.read x := by
  induction bs generalizing m a with
  | nil => rfl
  | cons b bs ih =>
    rw [List.length_cons] at hx
    calc (m.writeFrom a (b :: bs)).read x = (m.write a b).read x := ih _ _ (m.write_WF a b h) (by omega)
      _ = m.read x := m.read_write_other a x b h (by omega)

/-- The bytes stored read back in order. -/
theorem Memory.read_writeFrom (m : Memory) (a : Nat) (bs : List Byte) (j : Nat) (b : Byte) (h : m.WF)
    (hj : bs[j]? = some b) : (m.writeFrom a bs).read (a + j) = b := by
  induction bs generalizing m a j with
  | nil => cases hj
  | cons b' bs ih =>
    have hwf := m.write_WF a b' h
    cases j with
    | zero =>
      obtain rfl : b' = b := by simpa using hj
      calc (m.writeFrom a (b' :: bs)).read a = (m.write a b').read a :=
            Memory.read_writeFrom_outside _ _ bs a hwf (by omega)
        _ = b' := m.read_write_same a b' h
    | succ j =>
      rw [Nat.add_comm j 1, ← Nat.add_assoc]
      exact ih _ (a + 1) j hwf hj

/-! ## The data block of a read (R235) -/

/-- A data byte of a read that is not the last. -/
theorem step_rData_more (s : State) (i : Nat) (h : s.IsQuiet) (hb : s.offset + i < s.bufLen) (hi : i + 1 < 512) :
    step (s.atPoint .rData i) = .next (((s.exchange Config.filler).withBuf
      (s.buf.write (s.offset + i) s.draw)).atPoint .rData (i + 1)) := by
  rw [step_at_rData (s.atPoint .rData i) (h.atPoint ..).resetIn rfl hb, (h.atPoint ..).arrive]
  exact congrArg Host.Outcome.next (if_pos hi)

/-- The last data byte of a read. -/
theorem step_rData_last (s : State) (i : Nat) (h : s.IsQuiet) (hb : s.offset + i < s.bufLen) (hi : i + 1 = 512) :
    step (s.atPoint .rData i) = .next (((s.exchange Config.filler).withBuf
      (s.buf.write (s.offset + i) s.draw)).atPoint .rCrc 0) := by
  rw [step_at_rData (s.atPoint .rData i) (h.atPoint ..).resetIn rfl hb, (h.atPoint ..).arrive]
  exact congrArg Host.Outcome.next (if_neg hi.not_lt)

/-- The rest of a read's data bytes: each is stored at its offset, the block then stands at R_CRC. -/
theorem run_rData (data rest : List Byte) (s : State) (i : Nat) (h : s.IsQuiet) (hb : s.offset + 512 ≤ s.bufLen)
    (hlen : i + data.length = 512) (hlt : i < 512) (hscript : s.card.script = data ++ rest) :
    run data.length (s.atPoint .rData i) = .next
      (((s.exchangeAll (List.replicate data.length Config.filler)).withBuf
        (s.buf.writeFrom (s.offset + i) data)).atPoint .rCrc 0) := by
  induction data generalizing s i with
  | nil => exact absurd hlen hlt.ne
  | cons b data ih =>
    have hdraw : s.draw = b := s.draw_of_script b _ hscript
    have hin : s.offset + i < s.bufLen := by omega
    cases data with
    | nil =>
      rw [List.length_singleton, run_one, step_rData_last s i h hin hlen, hdraw, List.replicate_one,
        State.exchangeAll_cons, State.exchangeAll_nil, Memory.writeFrom_cons, Memory.writeFrom_nil]
    | cons b' data =>
      have hmore : i + 1 < 512 := by simp only [List.length_cons] at hlen; omega
      have hleft : i + 1 + (b' :: data).length = 512 := by rw [← hlen]; simp only [List.length_cons]; omega
      have hrest := ih ((s.exchange Config.filler).withBuf (s.buf.write (s.offset + i) b)) (i + 1)
        ((h.exchange _).withBuf _) (by simpa using hb) hleft hmore (by simp [hscript])
      rw [List.length_cons, run_succ _ (step_rData_more s i h hin hmore), hdraw, hrest, State.exchangeAll_withBuf]
      simp only [State.withBuf_withBuf, State.withBuf_buf, State.withBuf_offset, State.exchange_offset,
        List.length_cons, List.replicate_succ, State.exchangeAll_cons, Memory.writeFrom_cons, Nat.add_assoc]

theorem State.afterReadCrc_first (s : State) : (s.atPoint .rCrc 0).afterReadCrc = s.atPoint .rCrc 1 := rfl

theorem State.afterReadCrc_last (s : State) : (s.atPoint .rCrc 1).afterReadCrc = s.atPoint .rEndDeselect 2 := rfl

/-- A CRC byte of a read is exchanged and discarded. -/
theorem step_rCrc (s : State) (i : Nat) (h : s.IsQuiet) :
    step (s.atPoint .rCrc i) = .next ((s.exchange Config.filler).atPoint .rCrc i).afterReadCrc := by
  rw [step_at_rCrc (s.atPoint .rCrc i) (h.atPoint ..).resetIn rfl, (h.atPoint ..).arrive]
  rfl

/-- The two CRC bytes of a read. -/
theorem run_rCrc (s : State) (h : s.IsQuiet) :
    run 2 (s.atPoint .rCrc 0) = .next ((s.exchangeAll [Config.filler, Config.filler]).atPoint .rEndDeselect 2) := by
  have hfirst := step_rCrc s 0 h
  have hlast := step_rCrc (s.exchange Config.filler) 1 (h.exchange _)
  rw [State.afterReadCrc_first] at hfirst
  rw [State.afterReadCrc_last] at hlast
  rw [run_succ 1 hfirst, run_one, hlast, State.exchangeAll_cons, State.exchangeAll_cons, State.exchangeAll_nil]

/-- The data block of a read: the bytes received are stored from OFFSET on, 514 fillers are sent. -/
theorem run_readBlock (data rest : List Byte) (crc1 crc2 : Byte) (s : State) (h : s.IsQuiet)
    (hb : s.offset + 512 ≤ s.bufLen) (hlen : data.length = 512) (hscript : s.card.script = data ++ crc1 :: crc2 :: rest) :
    run 514 (s.atPoint .rData 0) = .next
      (((s.exchangeAll (List.replicate (data ++ [crc1, crc2]).length Config.filler)).withBuf
        (s.buf.writeFrom s.offset data)).atPoint .rEndDeselect 2) := by
  have hdata := run_rData data _ s 0 h hb (by omega) (by omega) hscript
  have hcrc := run_rCrc _ ((h.exchangeAll (List.replicate data.length Config.filler)).withBuf
    (s.buf.writeFrom s.offset data))
  rw [State.exchangeAll_withBuf, ← State.exchangeAll_append] at hcrc
  rw [← show data.length + 2 = 514 by omega, run_add _ 2 hdata, Nat.add_zero, hcrc, List.length_append,
    List.replicate_add]
  rfl

/-- Settles O47: the block is read with no access pending, then beside the host's accesses. -/
theorem readStoresTheBlockInOrder : Obligations.ReadStoresTheBlockInOrder := by
  intro s data rest crc1 crc2 hr hp hi hwf hb hlen hscript
  have hquiet := run_readBlock data rest crc1 crc2 s.quiet (s.isQuiet_quiet hr) hb hlen hscript
  rw [State.atPoint_self s.quiet _ _ hp hi] at hquiet
  have hrun := run_hostOf_busy 514 s s.quiet _ s.hostOf_quiet rfl hr hquiet nofun
  have htrace := s.quiet.exchangeAll_received Config.filler (data ++ [crc1, crc2]) rest
    (hscript.trans (List.append_assoc data [crc1, crc2] rest).symm)
  have harrivals := s.arrivals_eq 514 (by simp [hp])
  generalize s.arrivals 514 = arrived at hrun harrivals ⊢
  generalize List.replicate _ Config.filler = sent at hrun htrace
  refine ⟨_, hrun, rfl, fun j b hj => ?_, fun a ha => ?_, htrace, ?_⟩
  · exact Memory.read_writeFrom s.buf s.offset data j b hwf hj
  · exact Memory.read_writeFrom_outside s.buf s.offset data a hwf (hlen ▸ ha)
  · rw [State.hostOf_atPoint, State.hostOf_withBuf, State.hostOf_exchangeAll arrived s _ harrivals]
    rfl

/-! ## The data packet of a write (R243) -/

/-- Selecting a selected card changes nothing (R131). -/
theorem State.select_of_sel (s : State) (h : s.sel = true) : s.select = s := by
  rw [State.select, ← h]

/-- The filler before the packet. -/
theorem step_wGap (s : State) (i : Nat) (h : s.IsQuiet) :
    step (s.atPoint .wGap i) = .next ((s.exchange Config.filler).atPoint .wReselect i) := by
  rw [step_at_wGap (s.atPoint .wGap i) (h.atPoint ..).resetIn rfl, (h.atPoint ..).arrive]
  rfl

/-- The select before the packet, of a selected card. -/
theorem step_wReselect_selected (s : State) (i : Nat) (h : s.IsQuiet) (hsel : s.sel = true) :
    step (s.atPoint .wReselect i) = .next (s.atPoint .wToken i) := by
  rw [step_at_wReselect (s.atPoint .wReselect i) (h.atPoint ..).resetIn rfl, (h.atPoint ..).arrive,
    State.select_of_sel (s.atPoint .wReselect i) hsel]
  rfl

/-- The start token. -/
theorem step_wToken (s : State) (i : Nat) (h : s.IsQuiet) :
    step (s.atPoint .wToken i) = .next ((s.exchange Config.startToken).atPoint .wData 0) := by
  rw [step_at_wToken (s.atPoint .wToken i) (h.atPoint ..).resetIn rfl, (h.atPoint ..).arrive]
  rfl

/-- The filler, the select of the selected card and the start token. -/
theorem run_wGap (s : State) (i : Nat) (h : s.IsQuiet) (hsel : s.sel = true) :
    run 3 (s.atPoint .wGap i) = .next ((s.exchangeAll [Config.filler, Config.startToken]).atPoint .wData 0) := by
  have hx := h.exchange Config.filler
  rw [run_succ 2 (step_wGap s i h), run_succ 1 (step_wReselect_selected _ i hx hsel), run_one, step_wToken _ i hx]
  rfl

/-- A data byte of a write that is not the last. -/
theorem step_wData_more (s : State) (i : Nat) (h : s.IsQuiet) (hb : s.offset + i < s.bufLen) (hi : i + 1 < 512) :
    step (s.atPoint .wData i) = .next ((s.exchange (s.buf.read (s.offset + i))).atPoint .wData (i + 1)) := by
  rw [step_at_wData (s.atPoint .wData i) (h.atPoint ..).resetIn rfl hb, (h.atPoint ..).arrive]
  exact congrArg Host.Outcome.next (if_pos hi)

/-- The last data byte of a write. -/
theorem step_wData_last (s : State) (i : Nat) (h : s.IsQuiet) (hb : s.offset + i < s.bufLen) (hi : i + 1 = 512) :
    step (s.atPoint .wData i) = .next ((s.exchange (s.buf.read (s.offset + i))).atPoint .wCrc 0) := by
  rw [step_at_wData (s.atPoint .wData i) (h.atPoint ..).resetIn rfl hb, (h.atPoint ..).arrive]
  exact congrArg Host.Outcome.next (if_neg hi.not_lt)

/-- The rest of a write's data bytes: the buffer's bytes are sent in order, the block then stands at W_CRC. -/
theorem run_wData (n : Nat) (s : State) (i : Nat) (h : s.IsQuiet) (hb : s.offset + 512 ≤ s.bufLen)
    (hn : i + (n + 1) = 512) :
    run (n + 1) (s.atPoint .wData i) = .next
      ((s.exchangeAll ((List.range' (s.offset + i) (n + 1)).map s.buf.read)).atPoint .wCrc 0) := by
  induction n generalizing s i with
  | zero =>
    rw [Nat.zero_add, run_one, step_wData_last s i h (by omega) hn, List.range'_one, List.map_singleton,
      State.exchangeAll_cons, State.exchangeAll_nil]
  | succ n ih =>
    have hrest := ih (s.exchange (s.buf.read (s.offset + i))) (i + 1) (h.exchange _) (by simpa using hb) (by omega)
    rw [run_succ _ (step_wData_more s i h (by omega) (by omega)), hrest]
    simp only [State.exchange_buf, State.exchange_offset, List.range'_succ, List.map_cons, State.exchangeAll_cons,
      Nat.add_assoc]

theorem State.afterWriteCrc_first (s : State) : (s.atPoint .wCrc 0).afterWriteCrc = s.atPoint .wCrc 1 := rfl

theorem State.afterWriteCrc_last (s : State) : (s.atPoint .wCrc 1).afterWriteCrc = s.atPoint .wResp 2 := rfl

/-- A CRC byte of a write is 0xFF. -/
theorem step_wCrc (s : State) (i : Nat) (h : s.IsQuiet) :
    step (s.atPoint .wCrc i) = .next ((s.exchange Config.dummyCrc).atPoint .wCrc i).afterWriteCrc := by
  rw [step_at_wCrc (s.atPoint .wCrc i) (h.atPoint ..).resetIn rfl, (h.atPoint ..).arrive]
  rfl

/-- The two CRC bytes of a write. -/
theorem run_wCrc (s : State) (h : s.IsQuiet) :
    run 2 (s.atPoint .wCrc 0) = .next ((s.exchangeAll [Config.dummyCrc, Config.dummyCrc]).atPoint .wResp 2) := by
  have hfirst := step_wCrc s 0 h
  have hlast := step_wCrc (s.exchange Config.dummyCrc) 1 (h.exchange _)
  rw [State.afterWriteCrc_first] at hfirst
  rw [State.afterWriteCrc_last] at hlast
  rw [run_succ 1 hfirst, run_one, hlast, State.exchangeAll_cons, State.exchangeAll_cons, State.exchangeAll_nil]

/-- The bytes of a write's data packet (R243). -/
def State.writePacket (s : State) : List Byte :=
  [Config.filler, Config.startToken] ++ (List.range' s.offset 512).map s.buf.read ++ [Config.dummyCrc, Config.dummyCrc]

/-- The data packet of a write. -/
theorem run_writeBlock (s : State) (i : Nat) (h : s.IsQuiet) (hsel : s.sel = true) (hb : s.offset + 512 ≤ s.bufLen) :
    run 517 (s.atPoint .wGap i) = .next ((s.exchangeAll s.writePacket).atPoint .wResp 2) := by
  have hbuffer (txs : List Byte) : (s.exchangeAll txs).offset = s.offset ∧ (s.exchangeAll txs).bufLen = s.bufLen ∧
      (s.exchangeAll txs).buf = s.buf := by
    rw [State.exchangeAll_frame]
    exact ⟨rfl, rfl, rfl⟩
  obtain ⟨hoff, hlen, hbuf⟩ := hbuffer [Config.filler, Config.startToken]
  have hdata := run_wData 511 (s.exchangeAll [Config.filler, Config.startToken]) 0 (h.exchangeAll _)
    (by rw [hoff, hlen]; exact hb) (by decide)
  rw [hoff, hbuf, ← State.exchangeAll_append, Nat.add_zero s.offset] at hdata
  have hcrc := run_wCrc _ (h.exchangeAll ([Config.filler, Config.startToken] ++
    (List.range' s.offset (511 + 1)).map s.buf.read))
  rw [← State.exchangeAll_append] at hcrc
  rw [show 517 = 3 + (511 + 1 + 2) by decide, run_add 3 _ (run_wGap s i h hsel), run_add _ 2 hdata, hcrc,
    State.writePacket]

/-- Settles O49: the packet is sent with no access pending, then beside the host's accesses. -/
theorem writeSendsTheBlockInOrder : Obligations.WriteSendsTheBlockInOrder := by
  intro s hr hp hsel hb
  have hquiet := run_writeBlock s.quiet s.quiet.idx (s.isQuiet_quiet hr) hsel hb
  rw [State.atPoint_self s.quiet _ _ hp rfl] at hquiet
  have hrun := run_hostOf_busy 517 s s.quiet _ s.hostOf_quiet rfl hr hquiet nofun
  obtain ⟨sent, htrace, htx, hlines⟩ := s.quiet.exchangeAll_sent s.quiet.writePacket
  have hpacket : sent.map Xfer.tx =
      [0xFF, 0xFE] ++ (List.range 512).map (fun j => s.buf.read (s.offset + j)) ++ [0xFF, 0xFF] := by
    rw [htx, State.writePacket, List.range'_eq_map_range, List.map_map, s.quiet_buf, s.quiet_offset, Function.comp_def]
  have harrivals := s.arrivals_eq 517 (by simp [hp])
  generalize s.arrivals 517 = arrived at hrun harrivals ⊢
  generalize s.quiet.writePacket = packet at hrun htrace
  refine ⟨_, hrun, rfl, ?_, ⟨sent, ?_, hpacket, fun x hx => ?_⟩, ?_⟩
  · rw [State.hostOf_sel, State.atPoint_sel, State.exchangeAll_frame]
    exact hsel
  · rw [State.hostOf_trace, State.atPoint_trace]
    exact htrace
  · obtain ⟨hxsel, hxclk⟩ := hlines x hx
    exact ⟨hxsel.trans hsel, hxclk⟩
  · rw [State.hostOf_atPoint, State.hostOf_exchangeAll arrived s _ harrivals]
    rfl

end Sys2Proof.Machine
end

section
/-! PROOFS. The errors of the block transfer engine (60_exceptions.md): the token poll of a read runs out. -/

namespace Sys2Proof.Machine

/-! ## An error taken by a run -/

/-- Arrivals of a run in two parts. -/
theorem State.arrivals_add (m n : Nat) (s : State) : s.arrivals (m + n) = (s.arrivals m).arrivals n := by
  induction n with
  | zero => rfl
  | succ n ih => rw [← Nat.add_assoc, State.arrivals_succ, State.arrivals_succ, ih]

/-- A run that ends at the start of the error exit ends the operation in two steps more, beside the host's accesses. -/
theorem run_errorExit_after (e : Engine) (n : Nat) (s t : State) (hr : s.resetIn = false) (hp : s.phase ≠ .idle)
    (hrun : run n s.quiet = .next t) (ht : t.phase = e.errDeselect) :
    run (n + 2) s = .next ((s.arrivals (n + 2)).hostOf t.errorExit) := by
  obtain ⟨-, htr, -⟩ := run_quiet n s.quiet t rfl hr hrun
  have hbusy : t.phase ≠ .idle := ht ▸ e.errDeselect_ne_idle
  have hexit := run_errorExit e ((s.arrivals n).hostOf t) htr ht
  rw [run_add n 2 (run_hostOf_busy n s s.quiet t s.hostOf_quiet rfl hr hrun hbusy), hexit, State.arrivals_add]
  have harrivals : ((s.arrivals n).arrivals 2).hostOf t.errorExit = _ :=
    State.arrivals_congr 2 (s.arrivals n) ((s.arrivals n).hostOf t) t.errorExit rfl
      ((s.arrivals_phase n).trans_ne hp) hbusy
  exact congrArg Host.Outcome.next harrivals.symm

/-! ## The token poll of a read (R234) -/

/-- Exchanges take the bytes of a script from its front, one each. -/
theorem State.exchangeAll_script (txs : List Byte) (s : State) :
    (s.exchangeAll txs).card.script = s.card.script.drop txs.length := by
  induction txs generalizing s with
  | nil => rfl
  | cons tx txs ih =>
    rw [State.exchangeAll_cons, ih, State.exchange_script, List.length_cons, List.drop_tail]

/-- The token poll after a number of exchanges: R_TOKEN and POLL. -/
def State.atToken (n : Nat) (s : State) : State := { s with phase := .rToken, poll := n }

theorem State.atToken_self (s : State) (n : Nat) (hp : s.phase = .rToken) (hn : s.poll = n) : s.atToken n = s := by
  rw [State.atToken, ← hp, ← hn]

theorem State.IsQuiet.atToken {s : State} (h : s.IsQuiet) (n : Nat) : (s.atToken n).IsQuiet := ⟨h.resetIn, h.hostQueue⟩

/-- An exchange of the token poll that receives no start token. -/
theorem step_rToken_miss (s : State) (n : Nat) (h : s.IsQuiet) (hmiss : s.draw ≠ 0xFE) :
    step (s.atToken n) = .next (if n + 1 = Config.nTokenPoll
      then ((s.exchange Config.filler).atToken (n + 1)).takeError .read .dataTokenTimeout
      else (s.exchange Config.filler).atToken (n + 1)) := by
  rw [step_at_rToken (s.atToken n) (h.atToken n).resetIn rfl, (h.atToken n).arrive]
  exact congrArg Host.Outcome.next (if_neg hmiss)

/-- Below the bound the token poll skips bytes that are no start token. -/
theorem run_rToken_misses (skipped rest : List Byte) (s : State) (n : Nat) (h : s.IsQuiet)
    (hscript : s.card.script = skipped ++ rest) (hmiss : ∀ b ∈ skipped, b ≠ 0xFE)
    (hn : n + skipped.length < Config.nTokenPoll) :
    run skipped.length (s.atToken n) = .next
      ((s.exchangeAll (List.replicate skipped.length Config.filler)).atToken (n + skipped.length)) := by
  induction skipped generalizing s n with
  | nil => rfl
  | cons b skipped ih =>
    rw [List.length_cons] at hn ⊢
    obtain ⟨hb, hskipped⟩ := List.forall_mem_cons.1 hmiss
    have hstep := step_rToken_miss s n h (s.draw_of_script b _ hscript ▸ hb)
    rw [if_neg (by omega)] at hstep
    have hrest := ih (s.exchange Config.filler) (n + 1) (h.exchange _) (by simp [hscript]) hskipped (by omega)
    rw [run_succ _ hstep, hrest, List.replicate_succ, State.exchangeAll_cons, Nat.add_right_comm, Nat.add_assoc]

/-- The token poll that reaches its bound takes the error DataTokenTimeout. -/
theorem run_rToken_timesOut (skipped rest : List Byte) (s : State) (h : s.IsQuiet)
    (hscript : s.card.script = skipped ++ rest) (hmiss : ∀ b ∈ skipped, b ≠ 0xFE)
    (hlen : skipped.length = Config.nTokenPoll) :
    run skipped.length (s.atToken 0) = .next
      (((s.exchangeAll (List.replicate skipped.length Config.filler)).atToken skipped.length).takeError .read
        .dataTokenTimeout) := by
  obtain rfl | ⟨before, b, rfl⟩ := skipped.eq_nil_or_concat'
  · cases hlen
  · rw [List.length_append, List.length_singleton] at hlen ⊢
    rw [List.append_assoc] at hscript
    obtain ⟨hbefore, hb⟩ := List.forall_mem_append.1 hmiss
    have hmisses := run_rToken_misses before _ s 0 h hscript hbefore (by omega)
    have hdraw : (s.exchangeAll (List.replicate before.length Config.filler)).draw = b :=
      State.draw_of_script _ b rest (by simp [State.exchangeAll_script, hscript])
    have hlast := step_rToken_miss _ before.length (h.exchangeAll (List.replicate before.length Config.filler))
      (hdraw ▸ hb b (List.mem_singleton_self b))
    rw [if_pos hlen] at hlast
    rw [Nat.zero_add] at hmisses
    rw [run_snoc _ hmisses, hlast, List.replicate_succ', State.exchangeAll_append]
    rfl

/-- Settles O46: the poll runs out with no access pending, then the error exit beside the host's accesses. -/
theorem tokenPollTimesOut : Obligations.TokenPollTimesOut := by
  intro s skipped rest hr hp hpoll hscript hmiss hlen
  rw [← hlen]
  have hquiet := run_rToken_timesOut skipped rest s.quiet (s.isQuiet_quiet hr) hscript hmiss hlen
  rw [State.atToken_self s.quiet 0 hp hpoll] at hquiet
  have hbusy : s.phase ≠ .idle := by simp [hp]
  have hrun := run_errorExit_after .read skipped.length s _ hr hbusy hquiet rfl
  have htrace := s.quiet.exchangeAll_received Config.filler skipped rest hscript
  have harrivals := s.arrivals_eq (skipped.length + 2) hbusy
  generalize s.arrivals (skipped.length + 2) = arrived at hrun harrivals ⊢
  generalize List.replicate skipped.length Config.filler = sent at hrun htrace
  rw [State.exchangeAll_frame] at hrun
  refine ⟨_, hrun, rfl, rfl, rfl, rfl, rfl, ⟨_, congrArg (· ++ _) htrace, rfl, rfl⟩, ?_⟩
  rw [harrivals]
  rfl

end Sys2Proof.Machine
end

section
/-! PROOFS. The hazard of the select line (70_reset_and_hazards.md): a deselect and the filler that follows it. -/

namespace Sys2Proof.Machine

/-- The points a step that deselects goes on to: the first power-up filler of INIT and the five closing fillers (R182, R191,
R225, R321). -/
def Phase.FollowsDeselect (p : Phase) : Prop :=
  p = .iPowerup ∨ p = .iFinFiller ∨ p = .rEndFiller ∨ p = .rErrFiller ∨ p = .wEndFiller ∨ p = .wErrFiller

/-! ## The step that deselects -/

/-- A request runs an operation up to its first point, with the select line as it was (R38). -/
theorem exec_request_sel (op : BitVec 2) (sector count : Word32) (i : Instr) (s t : State)
    (hi : decodeRequest op sector count = .ok i) (h : exec i s = .next t) : t.sel = s.sel := by
  unfold decodeRequest at hi
  split_ifs at hi <;> cases hi
  all_goals
    simp only [exec, execInit, execReadBlocks, execWriteBlocks] at h
    split_ifs at h
    cases h
    rfl

/-- The step at IDLE leaves the select line as it was. -/
theorem step_from_idle_sel (s t : State) (hr : s.resetIn = false) (hp : s.phase = .idle) (h : step s = .next t) :
    t.sel = s.sel := by
  by_cases hq : ∃ v q, s.hostQueue = .write .reqOp v :: q
  · obtain ⟨v, q, hq⟩ := hq
    rw [step_idle_request s v q hr hp hq] at h
    cases hd : decodeRequest (v.extractLsb' 0 2) s.reqSector s.reqCount with
    | ok i =>
      rw [hd] at h
      exact exec_request_sel _ _ _ i { s with hostQueue := q } t hd h
    | error e =>
      rw [hd] at h
      cases h
      rfl
  · rw [step_idle_access s hr hp fun v q hvq => hq ⟨v, q, hvq⟩] at h
    cases h
    exact s.arrive_sel

/-- The step at F_SELECT selects the card (R150). -/
theorem step_from_fSelect_sel (s t : State) (hr : s.resetIn = false) (hp : s.phase = .fSelect) (h : step s = .next t) :
    t.sel = true := by
  rcases step_fSelect s.frame with ⟨tlen, ret, hstep⟩ | hstep <;>
    · rw [hstep s hr hp rfl] at h
      cases h
      rfl

/-- A selected card is deselected at the points that Deselect, and a filler is next there; an exchange leaves the select line
as it was, and a call of SendCommand selects. -/
theorem State.pointStep_deselects (s t : State) (h : s.pointStep = .next t) (hsel : s.sel = true) (ht : t.sel = false) :
    t.phase.FollowsDeselect := by
  have hkept : t.sel ≠ s.sel := by simp [hsel, ht]
  have hexchange (tx : Byte) (hx : s.exchangeAndReceive tx = .next t) : t.phase.FollowsDeselect :=
    absurd (State.receive_frame _ _ _ hx).sel hkept
  have hhead (p : RetPoint)
      (hx : Host.Outcome.next (if s.remain = 0 then s.finish .ok else s.callCommand p) =
        (.next t : Host.Outcome State Fault Refusal)) : t.phase.FollowsDeselect := by
    split at hx <;> cases hx
    · exact absurd rfl hkept
    · cases ht
  unfold State.pointStep at h
  cases hp : s.phase <;> simp only [hp] at h
  case fTx | fPoll | fTrail | iPowerup | iFinFiller | rToken | rData | rCrc | rEndFiller | rErrFiller | wGap | wToken |
      wCrc | wResp | wBusy | wEndFiller | wErrFiller => exact hexchange _ h
  case wData =>
    unfold State.sendDataByte at h
    split at h
    · exact hexchange _ h
    · cases h
  case rHead | wHead => exact hhead _ h
  case idle | fSelect | iFinFast =>
    cases h
    exact absurd rfl hkept
  case iCmd0 | iCmd8 | iLoop55 | iLoop41 | iCmd58 | rCmd17 | wCmd24 | wReselect =>
    cases h
    cases ht
  case iEntry | iFinDeselect | rEndDeselect | rErrDeselect | wEndDeselect | wErrDeselect =>
    cases h
    simp [Phase.FollowsDeselect, State.initEntry]

/-- A step that deselects goes on to a point whose filler is next. -/
theorem step_deselects (s t : State) (hr : s.resetIn = false) (h : step s = .next t) (hsel : s.sel = true)
    (ht : t.sel = false) : t.resetIn = false ∧ t.phase.FollowsDeselect := by
  by_cases hidle : s.phase = .idle
  · exact absurd (step_from_idle_sel s t hr hidle h) (by simp [hsel, ht])
  by_cases hframe : s.phase = .fSelect
  · exact absurd (step_from_fSelect_sel s t hr hframe h) (by simp [ht])
  rw [step_eq s hr hidle hframe] at h
  obtain ⟨hreset, -⟩ := State.pointStep_host _ _ h
  exact ⟨hreset.trans (s.arrive_resetIn.trans hr), State.pointStep_deselects _ t h (s.arrive_sel.trans hsel) ht⟩

/-! ## The filler that follows -/

/-- At a point that follows a deselect the filler is sent. -/
theorem Phase.FollowsDeselect.pointStep {s : State} (h : s.phase.FollowsDeselect) :
    s.pointStep = s.exchangeAndReceive Config.filler := by
  unfold State.pointStep
  rcases h with h | h | h | h | h | h <;> rw [h]

/-- At a point that follows a deselect no exchange faults: none of them stores to the buffer. -/
theorem Phase.FollowsDeselect.exchange_completes {s : State} (h : s.phase.FollowsDeselect) (tx : Byte) :
    ∃ t, s.exchangeAndReceive tx = .next t := by
  have hphase : (s.exchange tx).phase = s.phase := rfl
  unfold State.exchangeAndReceive State.receive
  rcases h with h | h | h | h | h | h <;> rw [hphase, h] <;> exact ⟨_, rfl⟩

theorem Phase.FollowsDeselect.ne_idle_and_ne_fSelect {p : Phase} (h : p.FollowsDeselect) : p ≠ .idle ∧ p ≠ .fSelect := by
  rcases h with rfl | rfl | rfl | rfl | rfl | rfl <;> decide

/-- An exchange leaves the select line as it was and appends its record (R130). -/
theorem State.exchangeAndReceive_record (tx : Byte) (s t : State) (h : s.exchangeAndReceive tx = .next t) :
    t.sel = s.sel ∧ t.trace = s.trace ++ [{ tx := tx, rx := s.draw, sel := s.sel, clk := s.clk }] :=
  have hframe := State.receive_frame _ _ _ h
  ⟨hframe.sel, hframe.trace⟩

/-- A point that follows a deselect makes one step: the filler's record is appended, the select line stays (R130, R321). -/
theorem step_after_deselect (s : State) (hr : s.resetIn = false) (h : s.phase.FollowsDeselect) :
    ∃ t, step s = .next t ∧ t.sel = s.sel ∧
      t.trace = s.trace ++ [{ tx := Config.filler, rx := s.draw, sel := s.sel, clk := s.clk }] := by
  obtain ⟨hidle, hframe⟩ := h.ne_idle_and_ne_fSelect
  have harrived : s.arrive.phase.FollowsDeselect := s.arrive_phase.symm ▸ h
  obtain ⟨t, ht⟩ := harrived.exchange_completes Config.filler
  obtain ⟨hsel, htrace⟩ := State.exchangeAndReceive_record _ _ t ht
  rw [step_eq s hr hidle hframe, harrived.pointStep]
  exact ⟨t, ht, by simpa using hsel, by simpa using htrace⟩

/-- Settles O16: a deselecting step goes on to a point that follows a deselect, and the step there is the filler. -/
theorem everyDeselectIsFollowedByAFiller : Obligations.EveryDeselectIsFollowedByAFiller := by
  intro s t hr hstep hsel ht
  obtain ⟨hreset, hnext⟩ := step_deselects s t hr hstep hsel ht
  have hfiller := step_after_deselect t hreset hnext
  rwa [ht] at hfiller

end Sys2Proof.Machine
end

section
/-! PROOFS. The encodings (30_encoding.md): decoding and encoding are inverse, and the words of the spec. -/

namespace Sys2Proof

open Machine

/-! ## Words by their fields -/

/-- The encoder's frame is the framer's six bytes (R91, R102). -/
theorem encodeFrame_eq_bytes (f : Frame) : encodeFrame f.index f.argument f.crc = f.bytes := by
  simp only [Frame.bytes, Frame.byte, cmdPrefix_or]
  rfl

theorem decode_encodeFrame (index : BitVec 6) (argument : Word32) (crc : Byte) :
    decode .cmdFrame (encodeFrame index argument crc) = decodeFrame index argument crc := by
  rw [encodeFrame_eq_bytes ⟨index, argument, crc⟩, decode_frame_bytes]

theorem decode_encodeRequest (op : BitVec 2) (sector count : Word32) :
    decode .hostReq (encodeRequest op sector count) = decodeRequest op sector count :=
  decode_request_bytes op sector count

/-! ## Decoding an encoding -/

/-- Settles O4: the fields of a frame and of a request come back, and a well-formed token passes the test of its format. -/
theorem encodedInstructionsDecodeBack : Obligations.EncodedInstructionsDecodeBack := by
  intro i hwf
  cases i with
  | cmd0 | cmd8 | cmd55 | acmd41V2 | acmd41Legacy | cmd58 | cmd17 | cmd24 =>
    simp [encode, Instr.format, decode_encodeFrame, decodeFrame]
  | init | readBlocks | writeBlocks =>
    simp [encode, Instr.format, decode_encodeRequest, decodeRequest]
  | filler | startTokenTx | dummyCrc | r1Idle | r1Ready | startTokenRx | busyByte | echoVolt | echoPattern => rfl
  | r1Valid b | dataAccepted b | ocrCcs b =>
    have hmask := hwf
    simp only [Instr.wf, beq_iff_eq] at hmask
    exact if_pos hmask

/-! ## Encoding what was decoded -/

/-- The two fixed bits and the index of a frame's first byte (T-CMDFRAME). -/
theorem prefix_append_index (b : Byte) (h : b.extractLsb' 6 2 = 0b01) : (0b01#2 ++ b.extractLsb' 0 6 : BitVec 8) = b := by
  rw [show 0b01#2 = b.extractLsb' 6 2 from h.symm, BitVec.extractLsb'_append_extractLsb'_eq_extractLsb' (by rfl)]
  exact BitVec.extractLsb'_eq_self

/-- The six zero bits and the operation of a request's first byte (R101). -/
theorem zeros_append_op (b : Byte) (h : b.extractLsb' 2 6 = 0) : (0#6 ++ b.extractLsb' 0 2 : BitVec 8) = b := by
  rw [show 0#6 = b.extractLsb' 2 6 from h.symm, BitVec.extractLsb'_append_extractLsb'_eq_extractLsb' (by rfl)]
  exact BitVec.extractLsb'_eq_self

/-- A frame's fields decode to the instruction they encode (T-FRAMES, R105). -/
theorem encode_of_decodeFrame (index : BitVec 6) (argument : Word32) (crc : Byte) (i : Instr)
    (h : decodeFrame index argument crc = .ok i) :
    i.wf = true ∧ i.format = .cmdFrame ∧ encode i = encodeFrame index argument crc := by
  unfold decodeFrame at h
  split_ifs at h <;> cases h <;> subst_vars <;> exact ⟨rfl, rfl, rfl⟩

/-- A request's fields decode to the operation they encode (R107, R110). -/
theorem encode_of_decodeRequest (op : BitVec 2) (sector count : Word32) (i : Instr)
    (h : decodeRequest op sector count = .ok i) :
    i.wf = true ∧ i.format = .hostReq ∧ encode i = encodeRequest op sector count := by
  unfold decodeRequest at h
  split_ifs at h <;> cases h <;> subst_vars <;> exact ⟨rfl, rfl, rfl⟩

/-- A token's byte decodes to the token it encodes (T-TOKENS, R106). -/
theorem encode_of_decodeToken (f : Format) (b : Byte) (i : Instr) (h : decodeToken f b = .ok i) :
    i.wf = true ∧ i.format = f ∧ encode i = [b] := by
  rcases decodeToken_fillers f b i h with ⟨rfl, rfl, hb⟩ | ⟨rfl, ⟨rfl, rfl⟩ | ⟨rfl, rfl⟩⟩ | ⟨rfl, rfl, rfl⟩ |
    ⟨rfl, rfl, hb⟩ | ⟨rfl, rfl, rfl⟩ | ⟨rfl, rfl, rfl⟩ | ⟨rfl, rfl, rfl⟩ | ⟨rfl, rfl, hb⟩ |
    ⟨rfl, ⟨rfl, rfl⟩ | ⟨rfl, rfl⟩⟩ | ⟨rfl, rfl, rfl⟩
  case inl => exact ⟨beq_iff_eq.2 hb, rfl, rfl⟩
  case inr.inr.inr.inl => exact ⟨beq_iff_eq.2 hb, rfl, rfl⟩
  case inr.inr.inr.inr.inr.inr.inr.inl => exact ⟨beq_iff_eq.2 hb, rfl, rfl⟩
  all_goals exact ⟨rfl, rfl, rfl⟩

/-- Settles O5: a word that decodes has its format's length, and its fields encode back. -/
theorem decodedWordsEncodeBack : Obligations.DecodedWordsEncodeBack := by
  intro f bytes i h
  unfold decode at h
  split at h
  case h_1 b0 b1 b2 b3 b4 b5 =>
    split_ifs at h with hprefix
    obtain ⟨hwf, hformat, hencode⟩ := encode_of_decodeFrame _ _ _ i h
    refine ⟨hwf, hformat, hencode.trans ?_⟩
    rw [encodeFrame, prefix_append_index b0 hprefix, beBytes_beWord]
    rfl
  case h_3 b s3 s2 s1 s0 c3 c2 c1 c0 =>
    split_ifs at h with hzeros
    obtain ⟨hwf, hformat, hencode⟩ := encode_of_decodeRequest _ _ _ i h
    refine ⟨hwf, hformat, hencode.trans ?_⟩
    rw [encodeRequest, zeros_append_op b hzeros, beBytes_beWord, beBytes_beWord]
    rfl
  case h_5 => exact encode_of_decodeToken _ _ i h
  all_goals cases h

/-- Settles O3: each word is decoded. -/
theorem wordsOfTheSpecDecode : Obligations.WordsOfTheSpecDecode := by
  unfold Obligations.WordsOfTheSpecDecode
  decide

/-! ## The bytes of a frame -/

/-- Settles O6: the two fixed bits stand above the index. -/
theorem frameByteZeroIsPrefixAndIndex : Obligations.FrameByteZeroIsPrefixAndIndex := by
  refine ⟨fun f => ⟨rfl, ?_⟩, fun s => ?_⟩
  · have hsum : ∀ index : BitVec 6, (Config.cmdPrefix ||| index.zeroExtend 8).toNat = 0x40 + index.toNat := by decide
    exact hsum f.index
  · simp [State.callFrame, Frame.byte]

/-- A word is the sum of its four bytes, each at its place (R65). -/
theorem toNat_eq_sum_bytes (w : Word32) :
    w.toNat = (w.extractLsb' 24 8).toNat * 2 ^ 24 + (w.extractLsb' 16 8).toNat * 2 ^ 16 +
      (w.extractLsb' 8 8).toNat * 2 ^ 8 + (w.extractLsb' 0 8).toNat := by
  have hw := w.isLt
  simp only [BitVec.extractLsb'_toNat, Nat.shiftRight_eq_div_pow]
  omega

/-- A frame instruction leaves in FRAME the bytes of its word (R160 to R166). -/
theorem exec_frame_bytes (i : Instr) (s : State) (h : i.format = .cmdFrame) :
    ∃ t : State, exec i s = .next t ∧ t.frame.bytes = encode i := by
  cases i <;> cases h <;> exact ⟨_, rfl, (encodeFrame_eq_bytes _).symm⟩

/-- The byte of FRAME that F_TX(k) sends is byte k of the six (R150, R152). -/
theorem Machine.Frame.byte_of_getElem? (f : Frame) (k : Nat) (b : Byte) (h : f.bytes[k]? = some b) :
    f.byte k = b ∧ k < 6 := by
  have hk : k < 6 := (List.getElem?_eq_some_iff.1 h).1
  refine ⟨?_, hk⟩
  interval_cases k <;> exact Option.some.inj h

/-- Settles O7: the framer sends FRAME in order, and a frame instruction leaves its word there. -/
theorem framerSendsTheEncodedFrame : Obligations.FramerSendsTheEncodedFrame := by
  refine ⟨exec_frame_bytes, fun s b hr hp hb => ?_, fun f => ⟨toNat_eq_sum_bytes f.argument, rfl⟩⟩
  obtain ⟨hbyte, hk⟩ := s.frame.byte_of_getElem? s.idx b hb
  have hstep := step_at_fTx s hr hp
  rw [hbyte] at hstep
  refine ⟨_, hstep, ?_⟩
  by_cases hlast : s.idx = 5
  · simp [State.afterFrameByte, hlast]
  · have hmore : s.idx + 1 < 6 := by omega
    simp [State.afterFrameByte, hmore, hlast, hp]

/-! ## The sector address -/

/-- Settles O40: the product with 512 is a shift by nine bits. -/
theorem encodeAddressByCapacityClass : Obligations.EncodeAddressByCapacityClass := by
  intro sector
  have hproduct : (encodeAddress .sdsc sector).toNat = sector.toNat * 512 % 2 ^ 32 := BitVec.toNat_mul ..
  refine ⟨rfl, hproduct, BitVec.eq_of_toNat_eq ?_⟩
  rw [hproduct, BitVec.toNat_append, BitVec.extractLsb'_toNat]
  simp only [BitVec.toNat_ofNat, Nat.zero_mod, Nat.or_zero, Nat.shiftLeft_eq, Nat.shiftRight_zero]
  omega

end Sys2Proof
end

section
/-! PROOFS. What one step can do (R34), by cases: one constructor for each branch of the pseudocode between two bus actions.
Proofs about a step split on these, and do not unfold it. -/

namespace Sys2Proof.Machine

/-! ## The caller's continuation -/

/-- What the caller of SendCommand does with the answer (R180, R230, R240): the state it goes on from. -/
inductive State.Resumes (s : State) : State → Prop
  | cmd0Idle (hret : s.ret = .iCmd0) (h : s.r1 = Config.r1Idle) : s.Resumes { s with phase := .iCmd8 }
  | cmd0Failed (hret : s.ret = .iCmd0) (h : s.r1 ≠ Config.r1Idle) : s.Resumes (s.finish .cmd0Failed)
  | cmd8 (hret : s.ret = .iCmd8) : s.Resumes { s with v2 := s.v2Test, retry := 0, phase := .iLoop55 }
  | cmd55 (hret : s.ret = .iLoop55) : s.Resumes { s with phase := .iLoop41 }
  | loopAgain (hret : s.ret = .iLoop41) (h : s.r1 ≠ Config.r1Ready) (hmore : s.retry + 1 ≠ Config.nAcmd41) :
      s.Resumes { s with retry := s.retry + 1, phase := .iLoop55 }
  | loopEndsV2 (hret : s.ret = .iLoop41) (hend : s.r1 = Config.r1Ready ∨ s.retry + 1 = Config.nAcmd41)
      (hv : s.v2 = true) : s.Resumes { s with retry := s.retry + 1, phase := .iCmd58 }
  | loopEndsLegacy (hret : s.ret = .iLoop41) (hend : s.r1 = Config.r1Ready ∨ s.retry + 1 = Config.nAcmd41)
      (hv : s.v2 = false) :
      s.Resumes { s with retry := s.retry + 1, capacityClass := .sdsc, phase := .iFinDeselect }
  | cmd58 (hret : s.ret = .iCmd58) : s.Resumes s.afterCmd58
  | cmd17 (hret : s.ret = .rCmd17) (h : s.r1 = Config.r1Ready) : s.Resumes { s with poll := 0, phase := .rToken }
  | cmd24 (hret : s.ret = .wCmd24) (h : s.r1 = Config.r1Ready) : s.Resumes { s with phase := .wGap }
  | rejected (e : Engine) (hret : s.ret = e.caller) (h : s.r1 ≠ Config.r1Ready) :
      s.Resumes (s.takeError e .commandRejected)

/-- After CMD41, by the three ways the loop can go on (R187, R190, R194). -/
theorem State.resumes_iLoop41 (s : State) (hret : s.ret = .iLoop41) : s.Resumes s.afterCmd41 := by
  unfold State.afterCmd41 State.leaveLoop
  dsimp only
  split
  · rename_i hend
    split
    · exact .loopEndsV2 hret hend ‹_›
    · exact .loopEndsLegacy hret hend (Bool.eq_false_iff.2 ‹_›)
  · rename_i hmore
    exact .loopAgain hret (not_or.1 hmore).1 (not_or.1 hmore).2

theorem State.resumes (s : State) : s.Resumes s.resume := by
  unfold State.resume
  cases hret : s.ret with
  | iCmd0 =>
    dsimp only
    unfold State.afterCmd0
    split
    · exact .cmd0Idle hret ‹_›
    · exact .cmd0Failed hret ‹_›
  | iCmd8 => exact .cmd8 hret
  | iLoop55 => exact .cmd55 hret
  | iLoop41 => exact s.resumes_iLoop41 hret
  | iCmd58 => exact .cmd58 hret
  | rCmd17 =>
    dsimp only
    unfold State.afterCmd17
    split
    · exact .cmd17 hret ‹_›
    · exact .rejected .read hret ‹_›
  | wCmd24 =>
    dsimp only
    unfold State.afterCmd24
    split
    · exact .cmd24 hret ‹_›
    · exact .rejected .write hret ‹_›

/-! ## The byte received -/

/-- Where the filler that closes a completed sector is exchanged. -/
def Engine.endFiller : Engine → Phase
  | .read => .rEndFiller
  | .write => .wEndFiller

/-- The points at which no exchange is due. -/
def Phase.noExchange : List Phase :=
  [.idle, .fSelect, .iEntry, .iCmd0, .iCmd8, .iLoop55, .iLoop41, .iCmd58, .iFinDeselect, .iFinFast, .rHead, .rCmd17,
    .rEndDeselect, .rErrDeselect, .wHead, .wCmd24, .wReselect, .wEndDeselect, .wErrDeselect]

/-- What the block does with the byte an exchange received (R34, R109): the state it goes on from. -/
inductive State.Receives (rx : Byte) (s : State) : State → Prop
  | frameByte (hp : s.phase = .fTx) (hi : s.idx + 1 < Config.frameLen) : s.Receives rx { s with idx := s.idx + 1 }
  | lastFrameByte (hp : s.phase = .fTx) (hi : ¬ s.idx + 1 < Config.frameLen) :
      s.Receives rx { s with idx := s.idx + 1, poll := 0, phase := .fPoll }
  | pollAgain (hp : s.phase = .fPoll) (hrx : endsR1Poll rx = false) (hn : s.poll + 1 ≠ Config.nCmdPoll) :
      s.Receives rx { s with poll := s.poll + 1, r1 := rx }
  | pollTrail (hp : s.phase = .fPoll) (hend : endsR1Poll rx = true ∨ s.poll + 1 = Config.nCmdPoll)
      (ht : 0 < s.tlen.val) : s.Receives rx { s with poll := s.poll + 1, r1 := rx, idx := 0, phase := .fTrail }
  | pollResume (hp : s.phase = .fPoll) (hend : endsR1Poll rx = true ∨ s.poll + 1 = Config.nCmdPoll)
      (ht : ¬ 0 < s.tlen.val) :
      s.Receives rx ({ s with poll := s.poll + 1, r1 := rx, idx := 0 } : State).resume
  | trailByte (hp : s.phase = .fTrail) (hi : s.idx + 1 < s.tlen.val) :
      s.Receives rx { s with trail := s.trail.set s.idx rx, idx := s.idx + 1, phase := .fTrail }
  | trailResume (hp : s.phase = .fTrail) (hi : ¬ s.idx + 1 < s.tlen.val) :
      s.Receives rx ({ s with trail := s.trail.set s.idx rx, idx := s.idx + 1 } : State).resume
  | powerup (hp : s.phase = .iPowerup) (hi : s.idx + 1 < Config.nPowerup) : s.Receives rx { s with idx := s.idx + 1 }
  | lastPowerup (hp : s.phase = .iPowerup) (hi : ¬ s.idx + 1 < Config.nPowerup) :
      s.Receives rx { s with idx := s.idx + 1, phase := .iCmd0 }
  | finFiller (hp : s.phase = .iFinFiller) : s.Receives rx { s with phase := .iFinFast }
  | startToken (hp : s.phase = .rToken) (hrx : rx = Config.startToken) :
      s.Receives rx { s with poll := s.poll + 1, idx := 0, phase := .rData }
  | tokenTimeout (hp : s.phase = .rToken) (hrx : rx ≠ Config.startToken) (hn : s.poll + 1 = Config.nTokenPoll) :
      s.Receives rx (({ s with poll := s.poll + 1 } : State).takeError .read .dataTokenTimeout)
  | tokenMiss (hp : s.phase = .rToken) (hrx : rx ≠ Config.startToken) (hn : s.poll + 1 ≠ Config.nTokenPoll) :
      s.Receives rx { s with poll := s.poll + 1 }
  | readByte (hp : s.phase = .rData) (hb : s.offset + s.idx < s.bufLen) (hi : s.idx + 1 < Config.blockLen) :
      s.Receives rx { s with buf := s.buf.write (s.offset + s.idx) rx, idx := s.idx + 1 }
  | lastReadByte (hp : s.phase = .rData) (hb : s.offset + s.idx < s.bufLen) (hi : ¬ s.idx + 1 < Config.blockLen) :
      s.Receives rx { s with buf := s.buf.write (s.offset + s.idx) rx, idx := 0, phase := .rCrc }
  | readCrc (hp : s.phase = .rCrc) (hi : s.idx + 1 < Config.nDataCrc) : s.Receives rx { s with idx := s.idx + 1 }
  | lastReadCrc (hp : s.phase = .rCrc) (hi : ¬ s.idx + 1 < Config.nDataCrc) :
      s.Receives rx { s with idx := s.idx + 1, phase := .rEndDeselect }
  | nextSector (e : Engine) (hp : s.phase = e.endFiller) (hr : s.remain - 1 ≠ 0) :
      s.Receives rx { s.advanceSector with phase := e.callSite }
  | lastSector (e : Engine) (hp : s.phase = e.endFiller) (hr : s.remain - 1 = 0) :
      s.Receives rx (s.advanceSector.finish .ok)
  | errFiller (e : Engine) (hp : s.phase = e.errFiller) : s.Receives rx (s.finish s.err)
  | gap (hp : s.phase = .wGap) : s.Receives rx { s with phase := .wReselect }
  | tokenSent (hp : s.phase = .wToken) : s.Receives rx { s with idx := 0, phase := .wData }
  | writeByte (hp : s.phase = .wData) (hi : s.idx + 1 < Config.blockLen) : s.Receives rx { s with idx := s.idx + 1 }
  | lastWriteByte (hp : s.phase = .wData) (hi : ¬ s.idx + 1 < Config.blockLen) :
      s.Receives rx { s with idx := 0, phase := .wCrc }
  | writeCrc (hp : s.phase = .wCrc) (hi : s.idx + 1 < Config.nDataCrc) : s.Receives rx { s with idx := s.idx + 1 }
  | lastWriteCrc (hp : s.phase = .wCrc) (hi : ¬ s.idx + 1 < Config.nDataCrc) :
      s.Receives rx { s with idx := s.idx + 1, phase := .wResp }
  | accepted (hp : s.phase = .wResp) (hrx : accepted rx = true) (hn : s.par.writeBusyBound = none) :
      s.Receives rx { s with resp := rx, phase := .wBusy }
  | acceptedBounded (bound : Nat) (hp : s.phase = .wResp) (hrx : accepted rx = true)
      (hn : s.par.writeBusyBound = some bound) : s.Receives rx { s with resp := rx, poll := 0, phase := .wBusy }
  | responseRejected (hp : s.phase = .wResp) (hrx : accepted rx = false) :
      s.Receives rx (({ s with resp := rx } : State).takeError .write .writeResponseRejected)
  | busy (hp : s.phase = .wBusy) (hrx : reportsBusy rx = true) (hn : s.par.writeBusyBound = none) : s.Receives rx s
  | busyEnds (hp : s.phase = .wBusy) (hrx : reportsBusy rx = false) (hn : s.par.writeBusyBound = none) :
      s.Receives rx { s with phase := .wEndDeselect }
  | busyCounted (bound : Nat) (hp : s.phase = .wBusy) (hrx : reportsBusy rx = true)
      (hn : s.par.writeBusyBound = some bound) (hmore : s.poll + 1 ≠ bound) :
      s.Receives rx { s with poll := s.poll + 1 }
  | busyTimeout (bound : Nat) (hp : s.phase = .wBusy) (hrx : reportsBusy rx = true)
      (hn : s.par.writeBusyBound = some bound) (hlast : s.poll + 1 = bound) :
      s.Receives rx (({ s with poll := s.poll + 1 } : State).takeError .write .writeBusyTimeout)
  | busyEndsCounted (bound : Nat) (hp : s.phase = .wBusy) (hrx : reportsBusy rx = false)
      (hn : s.par.writeBusyBound = some bound) :
      s.Receives rx { s with poll := s.poll + 1, phase := .wEndDeselect }
  | discarded (hp : s.phase ∈ Phase.noExchange) : s.Receives rx s

theorem State.receives_fPoll (rx : Byte) (s : State) (hp : s.phase = .fPoll) : s.Receives rx (s.pollR1 rx) := by
  unfold State.pollR1 State.endPoll
  dsimp only
  split
  · rename_i hend
    split
    · exact .pollTrail hp hend ‹_›
    · exact .pollResume hp hend ‹_›
  · rename_i hmore
    exact .pollAgain hp (Bool.eq_false_iff.2 (not_or.1 hmore).1) (not_or.1 hmore).2

theorem State.receives_fTrail (rx : Byte) (s : State) (hp : s.phase = .fTrail) :
    s.Receives rx (s.storeTrail s.idx rx) := by
  unfold State.storeTrail
  dsimp only
  split
  · exact .trailByte hp ‹_›
  · exact .trailResume hp ‹_›

theorem State.receives_rToken (rx : Byte) (s : State) (hp : s.phase = .rToken) : s.Receives rx (s.pollToken rx) := by
  unfold State.pollToken
  dsimp only
  split
  · exact .startToken hp ‹_›
  · split
    · exact .tokenTimeout hp ‹_› ‹_›
    · exact .tokenMiss hp ‹_› ‹_›

theorem State.receives_endFiller (rx : Byte) (s : State) (e : Engine) (hp : s.phase = e.endFiller) :
    s.Receives rx (s.advanceSector.nextSector e) := by
  unfold State.nextSector
  split
  · exact .lastSector e hp ‹_›
  · exact .nextSector e hp ‹_›

theorem State.receives_wResp (rx : Byte) (s : State) (hp : s.phase = .wResp) : s.Receives rx (s.judgeResponse rx) := by
  unfold State.judgeResponse State.enterBusy
  dsimp only
  split
  · split
    · exact .accepted hp ‹_› ‹_›
    · exact .acceptedBounded _ hp ‹_› ‹_›
  · exact .responseRejected hp (Bool.eq_false_iff.2 ‹_›)

theorem State.receives_wBusy (rx : Byte) (s : State) (hp : s.phase = .wBusy) : s.Receives rx (s.busyWait rx) := by
  unfold State.busyWait
  cases hn : s.par.writeBusyBound with
  | none =>
    dsimp only
    split
    · exact .busy hp ‹_› hn
    · exact .busyEnds hp (Bool.eq_false_iff.2 ‹_›) hn
  | some bound =>
    dsimp only
    split
    · split
      · exact .busyTimeout bound hp ‹_› hn ‹_›
      · exact .busyCounted bound hp ‹_› hn ‹_›
    · exact .busyEndsCounted bound hp (Bool.eq_false_iff.2 ‹_›) hn

theorem State.receives_rData (rx : Byte) (s : State) (hp : s.phase = .rData) (hb : s.offset + s.idx < s.bufLen) :
    s.Receives rx ({ s with buf := s.buf.write (s.offset + s.idx) rx } : State).afterReadByte := by
  unfold State.afterReadByte
  dsimp only
  split
  · exact .readByte hp hb ‹_›
  · exact .lastReadByte hp hb ‹_›

/-- What receiving a byte can do. -/
theorem State.receives {rx : Byte} {s t : State} (h : s.receive rx = .next t) : s.Receives rx t := by
  unfold State.receive at h
  cases hp : s.phase <;> simp only [hp] at h
  case rData =>
    unfold State.bufWrite at h
    by_cases hb : s.offset + s.idx < s.bufLen
    · rw [if_pos hb] at h
      cases h
      exact s.receives_rData rx hp hb
    · rw [if_neg hb] at h
      cases h
  all_goals
    injection h with h
    subst h
  case fPoll => exact s.receives_fPoll rx hp
  case fTrail => exact s.receives_fTrail rx hp
  case iFinFiller => exact .finFiller hp
  case rToken => exact s.receives_rToken rx hp
  case rEndFiller => exact s.receives_endFiller rx .read hp
  case rErrFiller => exact .errFiller .read hp
  case wGap => exact .gap hp
  case wToken => exact .tokenSent hp
  case wResp => exact s.receives_wResp rx hp
  case wBusy => exact s.receives_wBusy rx hp
  case wEndFiller => exact s.receives_endFiller rx .write hp
  case wErrFiller => exact .errFiller .write hp
  case fTx =>
    unfold State.afterFrameByte
    dsimp only
    split
    · exact .frameByte hp ‹_›
    · exact .lastFrameByte hp ‹_›
  case iPowerup =>
    unfold State.afterPowerup
    dsimp only
    split
    · exact .powerup hp ‹_›
    · exact .lastPowerup hp ‹_›
  case rCrc =>
    unfold State.afterReadCrc
    dsimp only
    split
    · exact .readCrc hp ‹_›
    · exact .lastReadCrc hp ‹_›
  case wData =>
    unfold State.afterWriteByte
    dsimp only
    split
    · exact .writeByte hp ‹_›
    · exact .lastWriteByte hp ‹_›
  case wCrc =>
    unfold State.afterWriteCrc
    dsimp only
    split
    · exact .writeCrc hp ‹_›
    · exact .lastWriteCrc hp ‹_›
  all_goals exact .discarded (by simp [hp, Phase.noExchange])

/-- Receiving a byte completes at every point, at R_DATA(j) within the bound buffer (D27, U7). -/
theorem State.receive_completes (rx : Byte) (s : State) (hb : s.phase = .rData → s.offset + s.idx < s.bufLen) :
    ∃ t, s.receive rx = .next t := by
  unfold State.receive
  cases hp : s.phase
  case rData => exact ⟨_, by rw [State.bufWrite, if_pos (hb hp)]⟩
  all_goals exact ⟨_, rfl⟩

/-! ## The control actions -/

/-- The program point of a call site. -/
def RetPoint.phase : RetPoint → Phase
  | .iCmd0 => .iCmd0
  | .iCmd8 => .iCmd8
  | .iLoop55 => .iLoop55
  | .iLoop41 => .iLoop41
  | .iCmd58 => .iCmd58
  | .rCmd17 => .rCmd17
  | .wCmd24 => .wCmd24

/-- The first point of a transfer. -/
def Engine.head : Engine → Phase
  | .read => .rHead
  | .write => .wHead

/-- Where a completed sector is deselected. -/
def Engine.endDeselect : Engine → Phase
  | .read => .rEndDeselect
  | .write => .wEndDeselect

/-- What a step of an operation does at a point where no exchange is due (R34): the state it goes on from. -/
inductive State.Controls (s : State) : State → Prop
  | rest (hp : s.phase = .idle ∨ s.phase = .fSelect) : s.Controls s
  | initEntry (hp : s.phase = .iEntry) : s.Controls s.initEntry
  | call (p : RetPoint) (hp : s.phase = p.phase) : s.Controls (s.callCommand p)
  | firstCall (e : Engine) (hp : s.phase = e.head) (hr : s.remain ≠ 0) : s.Controls (s.callCommand e.caller)
  | noSectors (e : Engine) (hp : s.phase = e.head) (hr : s.remain = 0) : s.Controls (s.finish .ok)
  | finDeselect (hp : s.phase = .iFinDeselect) : s.Controls { s.deselect with phase := .iFinFiller }
  | endDeselect (e : Engine) (hp : s.phase = e.endDeselect) : s.Controls { s.deselect with phase := e.endFiller }
  | errDeselect (e : Engine) (hp : s.phase = e.errDeselect) : s.Controls { s.deselect with phase := e.errFiller }
  | reselect (hp : s.phase = .wReselect) : s.Controls { s.select with phase := .wToken }
  | initReady (hp : s.phase = .iFinFast) : s.Controls s.initReady

theorem State.controls_head (s : State) (e : Engine) (hp : s.phase = e.head) :
    s.Controls (if s.remain = 0 then s.finish .ok else s.callCommand e.caller) := by
  split
  · exact .noSectors e hp ‹_›
  · exact .firstCall e hp ‹_›

/-- The points that send another byte than FILLER. -/
def Phase.sendsData : List Phase := [.fTx, .wToken, .wData, .wCrc]

/-- The step of a program point is a control action, or an exchange that sends FILLER but at the points that send data. -/
theorem State.pointStep_cases {s t : State} (h : s.pointStep = .next t) :
    s.Controls t ∨ ∃ tx, s.exchangeAndReceive tx = .next t ∧ s.phase ∉ Phase.noExchange ∧
      (tx = Config.filler ∨ s.phase ∈ Phase.sendsData) := by
  unfold State.pointStep at h
  cases hp : s.phase <;> simp only [hp] at h
  case wData =>
    unfold State.sendDataByte at h
    split at h
    · exact .inr ⟨_, h, by decide, .inr (by decide)⟩
    · cases h
  case fTx | wToken | wCrc => exact .inr ⟨_, h, by decide, .inr (by decide)⟩
  case fPoll | fTrail | iPowerup | iFinFiller | rToken | rData | rCrc | rEndFiller | rErrFiller | wGap | wResp | wBusy |
      wEndFiller | wErrFiller => exact .inr ⟨_, h, by decide, .inl rfl⟩
  all_goals
    injection h with h
    subst h
    left
  case idle => exact .rest (.inl hp)
  case fSelect => exact .rest (.inr hp)
  case iEntry => exact .initEntry hp
  case iCmd0 => exact .call .iCmd0 hp
  case iCmd8 => exact .call .iCmd8 hp
  case iLoop55 => exact .call .iLoop55 hp
  case iLoop41 => exact .call .iLoop41 hp
  case iCmd58 => exact .call .iCmd58 hp
  case rCmd17 => exact .call .rCmd17 hp
  case wCmd24 => exact .call .wCmd24 hp
  case iFinDeselect => exact .finDeselect hp
  case iFinFast => exact .initReady hp
  case rHead => exact s.controls_head .read hp
  case wHead => exact s.controls_head .write hp
  case rEndDeselect => exact .endDeselect .read hp
  case wEndDeselect => exact .endDeselect .write hp
  case rErrDeselect => exact .errDeselect .read hp
  case wErrDeselect => exact .errDeselect .write hp
  case wReselect => exact .reselect hp

/-- The step of a program point completes but where it reads or stores outside the bound buffer (U7). -/
theorem State.pointStep_completes (s : State)
    (hb : s.phase = .rData ∨ s.phase = .wData → s.offset + s.idx < s.bufLen) : ∃ t, s.pointStep = .next t := by
  have hexchange (tx : Byte) : ∃ t, s.exchangeAndReceive tx = .next t :=
    State.receive_completes s.draw (s.exchange tx) fun hp => hb (.inl hp)
  unfold State.pointStep
  cases hp : s.phase
  case wData =>
    dsimp only
    rw [State.sendDataByte, State.bufRead, if_pos (hb (.inr hp))]
    exact hexchange _
  case fTx | wToken | wCrc | fPoll | fTrail | iPowerup | iFinFiller | rToken | rData | rCrc | rEndFiller | rErrFiller |
      wGap | wResp | wBusy | wEndFiller | wErrFiller => exact hexchange _
  all_goals exact ⟨_, rfl⟩

/-! ## The step -/

/-- What the step at IDLE does after the host's access (R36, R38): nothing, or an operation starts. -/
inductive State.Accepts (s : State) : State → Prop
  | rest : s.Accepts s
  | init (sector count : Word32) : s.Accepts (s.start 1 sector count .iEntry)
  | read (sector count : Word32) (hb : count.toNat * Config.blockLen ≤ s.bufLen) :
      s.Accepts (s.start 2 sector count .rHead).loadOperands
  | write (sector count : Word32) (hb : count.toNat * Config.blockLen ≤ s.bufLen) :
      s.Accepts (s.start 3 sector count .wHead).loadOperands

/-- A request that runs starts its operation. -/
theorem State.accepts_request (op : BitVec 2) (sector count : Word32) (i : Instr) (s t : State)
    (hi : decodeRequest op sector count = .ok i) (h : exec i s = .next t) : s.Accepts t := by
  unfold decodeRequest at hi
  split_ifs at hi <;> cases hi
  · simp only [exec, execInit] at h
    split_ifs at h
    cases h
    exact .init sector count
  · simp only [exec, execReadBlocks] at h
    split_ifs at h with _ hb
    cases h
    exact .read sector count (not_lt.1 hb)
  · simp only [exec, execWriteBlocks] at h
    split_ifs at h with _ hb
    cases h
    exact .write sector count (not_lt.1 hb)

theorem State.accepts_of_idle {s t : State} (hr : s.resetIn = false) (hp : s.phase = .idle) (h : step s = .next t) :
    s.arrive.Accepts t := by
  by_cases hq : ∃ v q, s.hostQueue = .write .reqOp v :: q
  · obtain ⟨v, q, hq⟩ := hq
    have harrive : s.arrive = { s with hostQueue := q } := by simp [State.arrive, hq, State.busy, hp, State.access]
    rw [step_idle_request s v q hr hp hq, ← harrive] at h
    cases hd : decodeRequest (v.extractLsb' 0 2) s.reqSector s.reqCount with
    | ok i =>
      rw [hd] at h
      exact State.accepts_request _ _ _ i _ t hd h
    | error e =>
      rw [hd] at h
      cases h
      exact .rest
  · rw [step_idle_access s hr hp fun v q hvq => hq ⟨v, q, hvq⟩] at h
    cases h
    exact .rest

/-- What one step does, but for the reset input: the host's access, then what the program point says. -/
inductive State.Steps (s : State) : State → Prop
  | idle {t : State} (hp : s.phase = .idle) (h : s.arrive.Accepts t) : s.Steps t
  | framer (tlen : Fin 5) (ret : RetPoint) (hp : s.phase = .fSelect) :
      s.Steps (s.arrive.sendCommand s.frame.index s.frame.argument s.frame.crc tlen ret)
  | control {t : State} (hp : s.phase ≠ .idle) (h : s.arrive.Controls t) : s.Steps t
  | exchange {t : State} (tx : Byte) (hp : s.phase ∉ Phase.noExchange) (htx : tx = Config.filler ∨ s.phase ∈ Phase.sendsData)
      (h : s.arrive.exchangeAndReceive tx = .next t) : s.Steps t

theorem State.steps {s t : State} (hr : s.resetIn = false) (h : step s = .next t) : s.Steps t := by
  by_cases hidle : s.phase = .idle
  · exact .idle hidle (State.accepts_of_idle hr hidle h)
  by_cases hframe : s.phase = .fSelect
  · obtain ⟨tlen, ret, hstep⟩ | hstep := step_fSelect s.frame
    all_goals
      rw [hstep s hr hframe rfl] at h
      cases h
      exact .framer _ _ hframe
  rw [step_eq s hr hidle hframe] at h
  obtain hcontrol | ⟨tx, hexchange, hp, htx⟩ := State.pointStep_cases h
  · exact .control hidle hcontrol
  · exact .exchange tx (s.arrive_phase ▸ hp) (s.arrive_phase ▸ htx) hexchange

/-- What the byte of an exchange does, by cases. -/
theorem State.exchange_receives {tx : Byte} {s t : State} (h : s.exchangeAndReceive tx = .next t) :
    (s.exchange tx).Receives s.draw t := State.receives h

end Sys2Proof.Machine
end

section
/-! PROOFS. The serializer and the pins through an exchange (40_bus_driver.md section 2). -/

namespace Sys2Proof.Machine

/-- Eight bits shifted in replace the byte: the most significant one came first (R67, R135). -/
theorem shiftConcat_bits (x b : Byte) :
    (bitsMsbFirst b).foldl BitVec.shiftConcat x = b := by
  refine BitVec.eq_of_getLsbD_eq fun i hi => ?_
  interval_cases i <;> simp [bitsMsbFirst]

/-- Eight ones shifted in leave a byte of ones. -/
theorem shiftConcat_ones (x : Byte) : (List.replicate 8 true).foldl BitVec.shiftConcat x = 0xFF := by
  refine BitVec.eq_of_getLsbD_eq fun i hi => ?_
  interval_cases i <;> simp [List.replicate]

/-- A sequence of serial clocks shifts the received bits into RXSR and ones into TXSR, counts them, and leaves SCLK low. -/
theorem Serializer.shift_eq (bits : List Bool) (r : Serializer) (hlow : r.sclk = false) :
    Serializer.shift bits r =
      { txsr := (List.replicate bits.length true).foldl BitVec.shiftConcat r.txsr
        rxsr := bits.foldl BitVec.shiftConcat r.rxsr
        bitcnt := r.bitcnt + BitVec.ofNat 3 bits.length
        sclk := false } := by
  induction bits generalizing r with
  | nil =>
    obtain ⟨txsr, rxsr, bitcnt, sclk⟩ := r
    subst hlow
    simp [Serializer.shift]
  | cons miso bits ih =>
    have hcount : r.bitcnt + BitVec.ofNat 3 (bits.length + 1) = r.bitcnt + 1 + BitVec.ofNat 3 bits.length := by
      rw [Nat.add_comm, BitVec.ofNat_add, BitVec.add_assoc]
      rfl
    rw [Serializer.shift, ih (r.clock miso) rfl, List.length_cons, hcount]
    rfl

/-- After an exchange the serializer is empty: RXSR holds the byte received, TXSR ones (R32, R135). -/
theorem State.exchangeWith_ser_eq (tx rx : Byte) (s : State) :
    (s.exchangeWith tx rx).ser = { txsr := 0xFF, rxsr := rx, bitcnt := 0, sclk := false } := by
  rw [State.exchangeWith_ser, Serializer.shift_eq _ _ rfl]
  simp only [shiftConcat_bits, show (bitsMsbFirst rx).length = 8 from rfl, shiftConcat_ones]
  rfl

/-- The levels of one serial clock: the bit before, through and after the pulse of SCLK. -/
def bitLevels (bit : Bool) : List SerialLevels :=
  [{ sclk := false, mosi := bit }, { sclk := true, mosi := bit }, { sclk := false, mosi := bit }]

/-- Each serial clock drives the top bit of TXSR and then shifts it (R135). -/
theorem Serializer.wave_cons (miso : Bool) (bits : List Bool) (r : Serializer) (hlow : r.sclk = false) :
    Serializer.wave (miso :: bits) r = bitLevels r.txsr.msb ++ Serializer.wave bits (r.clock miso) := by
  simp only [Serializer.wave, bitLevels, Serializer.levels, Serializer.raise, Serializer.lower, hlow]

/-- The levels of an exchange: the byte sent, most significant bit first, then the idle levels (R135, R136). -/
theorem Serializer.wave_byte (tx rx : Byte) :
    Serializer.wave (bitsMsbFirst rx) (Serializer.load tx) =
      (bitsMsbFirst tx).flatMap bitLevels ++ [(Serializer.shift (bitsMsbFirst rx) (Serializer.load tx)).levels] := by
  unfold bitsMsbFirst
  iterate 8 rw [Serializer.wave_cons _ _ _ rfl]
  simp [Serializer.wave, Serializer.shift, Serializer.clock, Serializer.nextBit, Serializer.raise, Serializer.lower,
    Serializer.load, BitVec.msb_eq_getLsbD_last]

/-- Settles O59: the wave of an exchange with CS_n beside it, and the effect of one serial clock. -/
theorem exchangeIsMostSignificantBitFirst : Obligations.ExchangeIsMostSignificantBitFirst := by
  refine ⟨fun tx rx s => ⟨?_, s.exchangeWith_ser_eq tx rx, ?_⟩, fun miso r => ?_⟩
  · rw [State.exchangePins, Serializer.wave_byte, List.map_append, List.map_flatMap]
    rfl
  · simp only [State.pins, s.exchangeWith_ser_eq tx rx, State.exchangeWith_sel]
    rfl
  · have hshift (x : Byte) (b : Bool) : (x.shiftConcat b).toNat = (x.toNat * 2 + b.toNat) % 256 := by
      rw [BitVec.toNat_shiftConcat, Nat.shiftLeft_eq, pow_one]
    exact ⟨rfl, hshift r.rxsr miso, rfl, rfl, rfl, rfl, rfl, hshift r.txsr true, rfl, rfl⟩

end Sys2Proof.Machine
end

section
/-! PROOFS. The invariant of the runs of the block (Safety.lean): it holds at reset, every step keeps it, and no step from a
state of it faults. -/

namespace Sys2Proof.Machine

/-! ## Reset -/

/-- Settles O13: the block is idle, with an empty trace and the buffer unbound. -/
theorem resetMeetsTheInvariant : Obligations.ResetMeetsTheInvariant where
  bufWF := ⟨.nil, nofun⟩
  parWF := rfl
  point := rfl
  serIdle := ⟨rfl, rfl, rfl⟩
  deselectedFillers := nofun
  noBusyTimeout _ := nofun

/-- The reset input keeps the buffer and the parameters and gives the rest the values of reset (R311). -/
theorem State.Inv.applyReset {s : State} (h : s.Inv) : s.applyReset.Inv where
  bufWF := h.bufWF
  parWF := h.parWF
  point := rfl
  serIdle := ⟨rfl, rfl, rfl⟩
  deselectedFillers := nofun
  noBusyTimeout _ := nofun

/-! ## The host's access -/

theorem State.arrive_bufWF (s : State) (h : s.buf.WF) : s.arrive.buf.WF := by
  unfold State.arrive
  split
  · exact h
  · split
    · exact h
    · rename_i a q _ _
      cases a with
      | write reg value => cases reg <;> exact h
      | bindBuffer bytes => exact Memory.ofBytes_WF 0 bytes
      | pass => exact h

/-- What the host writes while the block is busy is not in the facts of a program point. -/
theorem State.arrive_pointOk (s : State) (h : s.pointOk = true) : s.arrive.pointOk = true := by
  by_cases hp : s.phase = .idle
  · simp [State.pointOk, hp]
  · rw [s.arrive_eq_busy hp]
    exact h

theorem State.Inv.arrive {s : State} (h : s.Inv) : s.arrive.Inv where
  bufWF := s.arrive_bufWF h.bufWF
  parWF := s.arrive_par.symm ▸ h.parWF
  point := s.arrive_pointOk h.point
  serIdle := s.arrive_ser.symm ▸ h.serIdle
  deselectedFillers := s.arrive_trace.symm ▸ h.deselectedFillers
  noBusyTimeout := by simpa using h.noBusyTimeout

/-! ## The facts of a program point, as propositions -/

/-- The number REQ_OP holds while an operation of the block transfer engine runs (R107). -/
def Engine.op : Engine → BitVec 2
  | .read => 2
  | .write => 3

/-- The errors that the error exit of an engine returns (R225, R271). -/
def State.errOk (s : State) : Engine → Prop
  | .read => s.err = .commandRejected ∨ s.err = .dataTokenTimeout
  | .write => s.err = .commandRejected ∨ s.err = .writeResponseRejected ∨
      (s.err = .writeBusyTimeout ∧ s.par.writeBusyBound ≠ none)

theorem State.initOk_iff (s : State) :
    s.initOk = true ↔ s.reqOp = 1 ∧ s.clk = .slow ∧ s.initialized = false ∧ s.capacityClass = .sdsc := by
  simp [State.initOk, and_assoc]

theorem State.sectorOk_iff (op : BitVec 2) (s : State) :
    s.sectorOk op = true ↔ s.reqOp = op ∧ s.remain ≠ 0 ∧ s.offset % Config.blockLen = 0 ∧
      s.offset + s.remain.toNat * Config.blockLen ≤ s.bufLen := by
  simp only [State.sectorOk, Bool.and_eq_true, beq_iff_eq, bne_iff_ne, decide_eq_true_eq, and_assoc]

theorem State.requestOk_iff (op : BitVec 2) (s : State) :
    s.requestOk op = true ↔ s.reqOp = op ∧ s.offset = 0 ∧ s.remain.toNat * Config.blockLen ≤ s.bufLen := by
  simp only [State.requestOk, Bool.and_eq_true, beq_iff_eq, decide_eq_true_eq, and_assoc]

theorem State.framerOk_iff (s : State) :
    s.framerOk = true ↔ s.sel = true ∧ s.frame = s.callFrame s.ret ∧ s.tlen = s.ret.tlen ∧ s.callerOk = true := by
  simp only [State.framerOk, Bool.and_eq_true, beq_iff_eq, and_assoc]

section
variable {s : State}

theorem State.pointOk_fSelect (hp : s.phase = .fSelect) : s.pointOk = false := by
  simp only [State.pointOk, hp]

theorem State.pointOk_fTx (hp : s.phase = .fTx) :
    s.pointOk = true ↔ s.idx < Config.frameLen ∧ s.framerOk = true := by
  simp only [State.pointOk, hp, Bool.and_eq_true, decide_eq_true_eq]

theorem State.pointOk_fPoll (hp : s.phase = .fPoll) :
    s.pointOk = true ↔ s.poll < Config.nCmdPoll ∧ s.framerOk = true := by
  simp only [State.pointOk, hp, Bool.and_eq_true, decide_eq_true_eq]

theorem State.pointOk_fTrail (hp : s.phase = .fTrail) :
    s.pointOk = true ↔ s.idx < s.tlen.val ∧ s.framerOk = true := by
  simp only [State.pointOk, hp, Bool.and_eq_true, decide_eq_true_eq]

theorem State.pointOk_iEntry (hp : s.phase = .iEntry) : s.pointOk = true ↔ s.reqOp = 1 := by
  simp only [State.pointOk, hp, beq_iff_eq]

theorem State.pointOk_iPowerup (hp : s.phase = .iPowerup) :
    s.pointOk = true ↔ s.idx < Config.nPowerup ∧ s.sel = false ∧ s.initOk = true := by
  simp only [State.pointOk, hp, Bool.and_eq_true, decide_eq_true_eq, Bool.not_eq_true', and_assoc]

theorem State.pointOk_iCmd0 (hp : s.phase = .iCmd0) : s.pointOk = true ↔ s.sel = false ∧ s.initOk = true := by
  simp only [State.pointOk, hp, Bool.and_eq_true, Bool.not_eq_true']

theorem State.pointOk_iCmd8 (hp : s.phase = .iCmd8) : s.pointOk = true ↔ s.sel = true ∧ s.initOk = true := by
  simp only [State.pointOk, hp, Bool.and_eq_true]

theorem State.pointOk_iLoop (hp : s.phase = .iLoop55 ∨ s.phase = .iLoop41) :
    s.pointOk = true ↔ s.sel = true ∧ s.initOk = true ∧ s.retry < Config.nAcmd41 := by
  rcases hp with hp | hp <;> simp only [State.pointOk, hp, Bool.and_eq_true, decide_eq_true_eq, and_assoc]

theorem State.pointOk_iCmd58 (hp : s.phase = .iCmd58) :
    s.pointOk = true ↔ s.sel = true ∧ s.initOk = true ∧ s.v2 = true := by
  simp only [State.pointOk, hp, Bool.and_eq_true, and_assoc]

theorem State.pointOk_iFinDeselect (hp : s.phase = .iFinDeselect) :
    s.pointOk = true ↔ s.sel = true ∧ s.reqOp = 1 ∧ s.clk = .slow ∧ s.initialized = false := by
  simp only [State.pointOk, hp, Bool.and_eq_true, beq_iff_eq, Bool.not_eq_true', and_assoc]

theorem State.pointOk_iFin (hp : s.phase = .iFinFiller ∨ s.phase = .iFinFast) :
    s.pointOk = true ↔ s.sel = false ∧ s.reqOp = 1 ∧ s.clk = .slow ∧ s.initialized = false := by
  rcases hp with hp | hp <;> simp only [State.pointOk, hp, Bool.and_eq_true, beq_iff_eq, Bool.not_eq_true', and_assoc]

theorem State.pointOk_head (e : Engine) (hp : s.phase = e.head) : s.pointOk = true ↔ s.requestOk e.op = true := by
  cases e <;> simp only [Engine.head] at hp <;> simp only [State.pointOk, hp, Engine.op]

theorem State.pointOk_callSite (e : Engine) (hp : s.phase = e.callSite) :
    s.pointOk = true ↔ s.sectorOk e.op = true := by
  cases e <;> simp only [Engine.callSite] at hp <;> simp only [State.pointOk, hp, Engine.op]

theorem State.pointOk_rToken (hp : s.phase = .rToken) :
    s.pointOk = true ↔ s.poll < Config.nTokenPoll ∧ s.sel = true ∧ s.sectorOk 2 = true := by
  simp only [State.pointOk, hp, Bool.and_eq_true, decide_eq_true_eq, and_assoc]

theorem State.pointOk_rData (hp : s.phase = .rData) :
    s.pointOk = true ↔ s.idx < Config.blockLen ∧ s.sel = true ∧ s.sectorOk 2 = true := by
  simp only [State.pointOk, hp, Bool.and_eq_true, decide_eq_true_eq, and_assoc]

theorem State.pointOk_rCrc (hp : s.phase = .rCrc) :
    s.pointOk = true ↔ s.idx < Config.nDataCrc ∧ s.sel = true ∧ s.sectorOk 2 = true := by
  simp only [State.pointOk, hp, Bool.and_eq_true, decide_eq_true_eq, and_assoc]

theorem State.pointOk_write (hp : s.phase = .wGap ∨ s.phase = .wReselect ∨ s.phase = .wToken ∨ s.phase = .wResp) :
    s.pointOk = true ↔ s.sel = true ∧ s.sectorOk 3 = true := by
  rcases hp with hp | hp | hp | hp <;> simp only [State.pointOk, hp, Bool.and_eq_true]

theorem State.pointOk_wData (hp : s.phase = .wData) :
    s.pointOk = true ↔ s.idx < Config.blockLen ∧ s.sel = true ∧ s.sectorOk 3 = true := by
  simp only [State.pointOk, hp, Bool.and_eq_true, decide_eq_true_eq, and_assoc]

theorem State.pointOk_wCrc (hp : s.phase = .wCrc) :
    s.pointOk = true ↔ s.idx < Config.nDataCrc ∧ s.sel = true ∧ s.sectorOk 3 = true := by
  simp only [State.pointOk, hp, Bool.and_eq_true, decide_eq_true_eq, and_assoc]

/-- At the busy-wait the counter is below its bound, where there is one. -/
theorem State.pointOk_wBusy (hp : s.phase = .wBusy) :
    s.pointOk = true ↔ s.sel = true ∧ s.sectorOk 3 = true ∧ ∀ bound, s.par.writeBusyBound = some bound → s.poll < bound := by
  have hcount : s.busyCountOk = true ↔ ∀ bound, s.par.writeBusyBound = some bound → s.poll < bound := by
    unfold State.busyCountOk
    cases s.par.writeBusyBound <;> simp
  simp only [State.pointOk, hp, Bool.and_eq_true, and_assoc, hcount]

theorem State.pointOk_endDeselect (e : Engine) (hp : s.phase = e.endDeselect) :
    s.pointOk = true ↔ s.sel = true ∧ s.sectorOk e.op = true := by
  cases e <;> simp only [Engine.endDeselect] at hp <;> simp only [State.pointOk, hp, Engine.op, Bool.and_eq_true]

theorem State.pointOk_endFiller (e : Engine) (hp : s.phase = e.endFiller) :
    s.pointOk = true ↔ s.sel = false ∧ s.sectorOk e.op = true := by
  cases e <;> simp only [Engine.endFiller] at hp <;>
    simp only [State.pointOk, hp, Engine.op, Bool.and_eq_true, Bool.not_eq_true']

theorem State.pointOk_errDeselect (e : Engine) (hp : s.phase = e.errDeselect) :
    s.pointOk = true ↔ s.sel = true ∧ s.reqOp = e.op ∧ s.errOk e := by
  cases e <;> simp only [Engine.errDeselect] at hp <;>
    simp [State.pointOk, hp, Engine.op, State.errOk, and_assoc, or_assoc, Option.ne_none_iff_isSome]

theorem State.pointOk_errFiller (e : Engine) (hp : s.phase = e.errFiller) :
    s.pointOk = true ↔ s.sel = false ∧ s.reqOp = e.op ∧ s.errOk e := by
  cases e <;> simp only [Engine.errFiller] at hp <;>
    simp [State.pointOk, hp, Engine.op, State.errOk, and_assoc, or_assoc, Option.ne_none_iff_isSome]

end

/-- A request starts at the first point of its operation with its operands loaded (R36, R38, U7). -/
theorem State.Inv.accepts {s t : State} (h : s.Inv) (ha : s.Accepts t) : t.Inv where
  bufWF := by cases ha <;> exact h.bufWF
  parWF := by cases ha <;> exact h.parWF
  point := by
    cases ha with
    | rest => exact h.point
    | init => rfl
    | read sector count hb => exact (State.pointOk_head .read rfl).2 ((State.requestOk_iff ..).2 ⟨rfl, rfl, hb⟩)
    | write sector count hb => exact (State.pointOk_head .write rfl).2 ((State.requestOk_iff ..).2 ⟨rfl, rfl, hb⟩)
  serIdle := by cases ha <;> exact h.serIdle
  deselectedFillers := by cases ha <;> exact h.deselectedFillers
  noBusyTimeout := by cases ha <;> exact h.noBusyTimeout

/-! ## The control actions -/

/-- The facts of a call site are those of the call's caller. -/
theorem State.callCommand_callerOk (s : State) (p : RetPoint) (hp : s.phase = p.phase) (h : s.pointOk = true) :
    (s.callCommand p).callerOk = true := by
  cases p with
  | iCmd0 => exact ((State.pointOk_iCmd0 hp).1 h).2
  | iCmd8 => exact ((State.pointOk_iCmd8 hp).1 h).2
  | iLoop55 =>
    obtain ⟨-, hinit, hretry⟩ := (State.pointOk_iLoop (.inl hp)).1 h
    exact (Bool.and_eq_true ..).symm ▸ ⟨hinit, decide_eq_true hretry⟩
  | iLoop41 =>
    obtain ⟨-, hinit, hretry⟩ := (State.pointOk_iLoop (.inr hp)).1 h
    exact (Bool.and_eq_true ..).symm ▸ ⟨hinit, decide_eq_true hretry⟩
  | iCmd58 =>
    obtain ⟨-, hinit, hv⟩ := (State.pointOk_iCmd58 hp).1 h
    exact (Bool.and_eq_true ..).symm ▸ ⟨hinit, hv⟩
  | rCmd17 => exact (State.pointOk_callSite .read hp).1 h
  | wCmd24 => exact (State.pointOk_callSite .write hp).1 h

/-- The first sector of a request is a sector to do. -/
theorem State.sectorOk_of_requestOk (s : State) (op : BitVec 2) (h : s.requestOk op = true) (hr : s.remain ≠ 0) :
    s.sectorOk op = true := by
  obtain ⟨hop, hoff, hlen⟩ := (s.requestOk_iff op).1 h
  exact (s.sectorOk_iff op).2 ⟨hop, hr, by rw [hoff]; rfl, by rwa [hoff, Nat.zero_add]⟩

/-- A call of SendCommand stands at F_TX(0) with the caller's frame. -/
theorem State.callCommand_pointOk (s : State) (p : RetPoint) (h : (s.callCommand p).callerOk = true) :
    (s.callCommand p).pointOk = true := by
  have hframe : (s.callCommand p).frame = (s.callCommand p).callFrame p := by cases p <;> rfl
  exact (State.pointOk_fTx rfl).2 ⟨Nat.succ_pos 5, (State.framerOk_iff _).2 ⟨rfl, hframe, rfl, h⟩⟩

/-- A control action goes on to a point whose facts hold. -/
theorem State.Controls.pointOk {s t : State} (hc : s.Controls t) (h : s.pointOk = true) : t.pointOk = true := by
  cases hc with
  | rest => exact h
  | initEntry hp =>
    exact (State.pointOk_iPowerup rfl).2
      ⟨Nat.succ_pos 9, rfl, (State.initOk_iff _).2 ⟨(State.pointOk_iEntry hp).1 h, rfl, rfl, rfl⟩⟩
  | call p hp => exact s.callCommand_pointOk p (s.callCommand_callerOk p hp h)
  | firstCall e hp hr =>
    have hsector := s.sectorOk_of_requestOk e.op ((State.pointOk_head e hp).1 h) hr
    exact s.callCommand_pointOk e.caller (by cases e <;> exact hsector)
  | noSectors | initReady => rfl
  | finDeselect hp => exact (State.pointOk_iFin (.inl rfl)).2 ⟨rfl, ((State.pointOk_iFinDeselect hp).1 h).2⟩
  | endDeselect e hp => exact (State.pointOk_endFiller e rfl).2 ⟨rfl, ((State.pointOk_endDeselect e hp).1 h).2⟩
  | errDeselect e hp =>
    obtain ⟨-, hop, herr⟩ := (State.pointOk_errDeselect e hp).1 h
    exact (State.pointOk_errFiller e rfl).2 ⟨rfl, hop, by cases e <;> exact herr⟩
  | reselect hp =>
    have hsector := ((State.pointOk_write (.inr (.inl hp))).1 h).2
    exact (State.pointOk_write (.inr (.inr (.inl rfl)))).2 ⟨rfl, hsector⟩

/-- The control actions leave the buffer, the parameters, the serializer and the bus trace. -/
theorem State.Controls.frame {s t : State} (hc : s.Controls t) :
    t.buf = s.buf ∧ t.par = s.par ∧ t.ser = s.ser ∧ t.trace = s.trace := by
  cases hc <;> exact ⟨rfl, rfl, rfl, rfl⟩

/-- A control action keeps the result or returns OK. -/
theorem State.Controls.result {s t : State} (hc : s.Controls t) : t.result = s.result ∨ t.result = .ok := by
  cases hc with
  | noSectors | initReady => exact .inr rfl
  | _ => exact .inl rfl

theorem State.Inv.controls {s t : State} (h : s.Inv) (hc : s.Controls t) : t.Inv := by
  obtain ⟨hbuf, hpar, hser, htrace⟩ := hc.frame
  refine ⟨hbuf ▸ h.bufWF, hpar ▸ h.parWF, hc.pointOk h.point, hser ▸ h.serIdle, htrace ▸ h.deselectedFillers, ?_⟩
  rw [hpar]
  intro hnone
  rcases hc.result with hres | hres <;> rw [hres]
  · exact h.noBusyTimeout hnone
  · nofun

/-! ## The exchange -/

/-- At the points that send another byte than FILLER the card is selected (R132). -/
theorem State.sel_of_sendsData (s : State) (hp : s.phase ∈ Phase.sendsData) (h : s.pointOk = true) : s.sel = true := by
  simp only [Phase.sendsData, List.mem_cons, List.not_mem_nil, or_false] at hp
  rcases hp with hp | hp | hp | hp
  · exact ((State.framerOk_iff s).1 ((State.pointOk_fTx hp).1 h).2).1
  · exact ((State.pointOk_write (.inr (.inr (.inl hp)))).1 h).1
  · exact ((State.pointOk_wData hp).1 h).2.1
  · exact ((State.pointOk_wCrc hp).1 h).2.1

/-- An exchange keeps the invariant: the serializer is idle again, and deselected only a filler was sent. -/
theorem State.Inv.exchange {s : State} (h : s.Inv) (tx : Byte) (htx : tx = Config.filler ∨ s.phase ∈ Phase.sendsData) :
    (s.exchange tx).Inv where
  bufWF := h.bufWF
  parWF := h.parWF
  point := h.point
  serIdle := by
    rw [State.exchange, State.exchangeWith_ser_eq]
    exact ⟨rfl, rfl, rfl⟩
  deselectedFillers := by
    refine List.forall_mem_append.2 ⟨h.deselectedFillers, fun x hx hsel => ?_⟩
    cases List.mem_singleton.1 hx
    rcases htx with htx | hp
    · exact htx
    · exact absurd (s.sel_of_sendsData hp h.point) (Bool.eq_false_iff.1 hsel)
  noBusyTimeout := h.noBusyTimeout

/-! ## The caller's continuation -/

/-- The caller of a command of INIT (R180) was in the state `initOk` describes. -/
theorem State.callerOk_init (s : State) (h : s.callerOk = true) (h17 : s.ret ≠ .rCmd17) (h24 : s.ret ≠ .wCmd24) :
    s.initOk = true := by
  unfold State.callerOk at h
  cases hret : s.ret <;> simp only [hret, Bool.and_eq_true, ne_eq, not_true_eq_false] at h h17 h24
  case iCmd0 | iCmd8 => exact h
  case iLoop55 | iLoop41 | iCmd58 => exact h.1

theorem State.callerOk_loop (s : State) (h : s.callerOk = true) (hret : s.ret = .iLoop55 ∨ s.ret = .iLoop41) :
    s.initOk = true ∧ s.retry < Config.nAcmd41 := by
  rcases hret with hret | hret <;>
    simpa only [State.callerOk, hret, Bool.and_eq_true, decide_eq_true_eq] using h

theorem State.callerOk_engine (s : State) (e : Engine) (h : s.callerOk = true) (hret : s.ret = e.caller) :
    s.sectorOk e.op = true := by
  cases e <;> simpa only [State.callerOk, hret, Engine.caller, Engine.op] using h

/-- The caller goes on at a point whose facts hold (R180, R230, R240). -/
theorem State.Resumes.pointOk {s t : State} (hc : s.Resumes t) (h : s.framerOk = true) : t.pointOk = true := by
  obtain ⟨hsel, -, -, hcaller⟩ := (State.framerOk_iff s).1 h
  cases hc with
  | cmd0Idle hret =>
    exact (State.pointOk_iCmd8 rfl).2 ⟨hsel, s.callerOk_init hcaller (by simp [hret]) (by simp [hret])⟩
  | cmd0Failed => rfl
  | cmd8 hret =>
    exact (State.pointOk_iLoop (.inl rfl)).2
      ⟨hsel, s.callerOk_init hcaller (by simp [hret]) (by simp [hret]), Nat.succ_pos _⟩
  | cmd55 hret => exact (State.pointOk_iLoop (.inr rfl)).2 ⟨hsel, s.callerOk_loop hcaller (.inl hret)⟩
  | loopAgain hret h0 hmore =>
    obtain ⟨hinit, hretry⟩ := s.callerOk_loop hcaller (.inr hret)
    exact (State.pointOk_iLoop (.inl rfl)).2 ⟨hsel, hinit, Nat.lt_of_le_of_ne hretry hmore⟩
  | loopEndsV2 hret hend hv =>
    exact (State.pointOk_iCmd58 rfl).2 ⟨hsel, (s.callerOk_loop hcaller (.inr hret)).1, hv⟩
  | loopEndsLegacy hret =>
    obtain ⟨hop, hclk, hinit, -⟩ := (State.initOk_iff s).1 (s.callerOk_loop hcaller (.inr hret)).1
    exact (State.pointOk_iFinDeselect rfl).2 ⟨hsel, hop, hclk, hinit⟩
  | cmd58 hret =>
    obtain ⟨hop, hclk, hinit, -⟩ :=
      (State.initOk_iff s).1 (s.callerOk_init hcaller (by simp [hret]) (by simp [hret]))
    exact (State.pointOk_iFinDeselect rfl).2 ⟨hsel, hop, hclk, hinit⟩
  | cmd17 hret => exact (State.pointOk_rToken rfl).2 ⟨Nat.succ_pos _, hsel, s.callerOk_engine .read hcaller hret⟩
  | cmd24 hret => exact (State.pointOk_write (.inl rfl)).2 ⟨hsel, s.callerOk_engine .write hcaller hret⟩
  | rejected e hret =>
    obtain ⟨hop, -⟩ := (State.sectorOk_iff ..).1 (s.callerOk_engine e hcaller hret)
    exact (State.pointOk_errDeselect e rfl).2 ⟨hsel, hop, by cases e <;> exact .inl rfl⟩

/-- The caller keeps the result, or CMD0 failed (R183). -/
theorem State.Resumes.result {s t : State} (hc : s.Resumes t) : t.result = s.result ∨ t.result = .cmd0Failed := by
  cases hc with
  | cmd0Failed => exact .inr rfl
  | _ => exact .inl rfl

/-! ## The byte received -/

/-- Counting a sector down, with one to do. -/
theorem toNat_sub_one (n : Word32) (h : n ≠ 0) : (n - 1).toNat + 1 = n.toNat := by
  have hpos : n.toNat ≠ 0 := fun h0 => h (BitVec.eq_of_toNat_eq h0)
  have hlt := n.isLt
  rw [BitVec.toNat_sub]
  simp only [BitVec.reduceToNat]
  omega

/-- A sector more is a sector less to do: what is done and what is left stay within the bound buffer (R221). -/
theorem State.sectorOk_advanceSector (s : State) (op : BitVec 2) (h : s.sectorOk op = true) (hr : s.remain - 1 ≠ 0) :
    s.advanceSector.sectorOk op = true := by
  obtain ⟨hop, hremain, hoff, hlen⟩ := (State.sectorOk_iff ..).1 h
  have hcount := toNat_sub_one s.remain hremain
  refine (State.sectorOk_iff ..).2 ⟨hop, hr, ?_, ?_⟩
  · simpa using hoff
  · simp only [State.advanceSector_offset, State.advanceSector_remain, State.advanceSector_bufLen, Config.blockLen] at *
    omega

/-- Receiving a byte goes on to a point whose facts hold. -/
theorem State.Receives.pointOk {rx : Byte} {s t : State} (hc : s.Receives rx t) (h : s.pointOk = true)
    (hwf : s.par.wf = true) : t.pointOk = true := by
  cases hc with
  | frameByte hp hi => exact (State.pointOk_fTx (by exact hp)).2 ⟨hi, ((State.pointOk_fTx hp).1 h).2⟩
  | lastFrameByte hp => exact (State.pointOk_fPoll rfl).2 ⟨Nat.succ_pos _, ((State.pointOk_fTx hp).1 h).2⟩
  | pollAgain hp hrx hn =>
    obtain ⟨hpoll, hframer⟩ := (State.pointOk_fPoll hp).1 h
    exact (State.pointOk_fPoll (by exact hp)).2 ⟨Nat.lt_of_le_of_ne hpoll hn, hframer⟩
  | pollTrail hp hend ht => exact (State.pointOk_fTrail rfl).2 ⟨ht, ((State.pointOk_fPoll hp).1 h).2⟩
  | pollResume hp => exact (State.resumes _).pointOk ((State.pointOk_fPoll hp).1 h).2
  | trailByte hp hi => exact (State.pointOk_fTrail rfl).2 ⟨hi, ((State.pointOk_fTrail hp).1 h).2⟩
  | trailResume hp => exact (State.resumes _).pointOk ((State.pointOk_fTrail hp).1 h).2
  | powerup hp hi => exact (State.pointOk_iPowerup (by exact hp)).2 ⟨hi, ((State.pointOk_iPowerup hp).1 h).2⟩
  | lastPowerup hp => exact (State.pointOk_iCmd0 rfl).2 ((State.pointOk_iPowerup hp).1 h).2
  | finFiller hp => exact (State.pointOk_iFin (.inr rfl)).2 ((State.pointOk_iFin (.inl hp)).1 h)
  | startToken hp => exact (State.pointOk_rData rfl).2 ⟨Nat.succ_pos _, ((State.pointOk_rToken hp).1 h).2⟩
  | tokenTimeout hp =>
    obtain ⟨-, hsel, hsector⟩ := (State.pointOk_rToken hp).1 h
    exact (State.pointOk_errDeselect .read rfl).2 ⟨hsel, ((State.sectorOk_iff ..).1 hsector).1, .inr rfl⟩
  | tokenMiss hp hrx hn =>
    obtain ⟨hpoll, hrest⟩ := (State.pointOk_rToken hp).1 h
    exact (State.pointOk_rToken (by exact hp)).2 ⟨Nat.lt_of_le_of_ne hpoll hn, hrest⟩
  | readByte hp hb hi => exact (State.pointOk_rData (by exact hp)).2 ⟨hi, ((State.pointOk_rData hp).1 h).2⟩
  | lastReadByte hp => exact (State.pointOk_rCrc rfl).2 ⟨Nat.succ_pos _, ((State.pointOk_rData hp).1 h).2⟩
  | readCrc hp hi => exact (State.pointOk_rCrc (by exact hp)).2 ⟨hi, ((State.pointOk_rCrc hp).1 h).2⟩
  | lastReadCrc hp => exact (State.pointOk_endDeselect .read rfl).2 ((State.pointOk_rCrc hp).1 h).2
  | nextSector e hp hr =>
    have hsector := s.sectorOk_advanceSector e.op ((State.pointOk_endFiller e hp).1 h).2 hr
    exact (State.pointOk_callSite e rfl).2 hsector
  | lastSector | errFiller => rfl
  | gap hp => exact (State.pointOk_write (.inr (.inl rfl))).2 ((State.pointOk_write (.inl hp)).1 h)
  | tokenSent hp =>
    exact (State.pointOk_wData rfl).2 ⟨Nat.succ_pos _, (State.pointOk_write (.inr (.inr (.inl hp)))).1 h⟩
  | writeByte hp hi => exact (State.pointOk_wData (by exact hp)).2 ⟨hi, ((State.pointOk_wData hp).1 h).2⟩
  | lastWriteByte hp => exact (State.pointOk_wCrc rfl).2 ⟨Nat.succ_pos _, ((State.pointOk_wData hp).1 h).2⟩
  | writeCrc hp hi => exact (State.pointOk_wCrc (by exact hp)).2 ⟨hi, ((State.pointOk_wCrc hp).1 h).2⟩
  | lastWriteCrc hp => exact (State.pointOk_write (.inr (.inr (.inr rfl)))).2 ((State.pointOk_wCrc hp).1 h).2
  | accepted hp hrx hn =>
    obtain ⟨hsel, hsector⟩ := (State.pointOk_write (.inr (.inr (.inr hp)))).1 h
    exact (State.pointOk_wBusy rfl).2 ⟨hsel, hsector, fun bound hb => absurd (hn.symm.trans hb) nofun⟩
  | acceptedBounded bound hp hrx hn =>
    obtain ⟨hsel, hsector⟩ := (State.pointOk_write (.inr (.inr (.inr hp)))).1 h
    refine (State.pointOk_wBusy rfl).2 ⟨hsel, hsector, fun bound' hb => Nat.pos_of_ne_zero fun h0 => ?_⟩
    exact bne_iff_ne.1 hwf (hb.trans (congrArg some h0))
  | responseRejected hp =>
    obtain ⟨hsel, hsector⟩ := (State.pointOk_write (.inr (.inr (.inr hp)))).1 h
    exact (State.pointOk_errDeselect .write rfl).2 ⟨hsel, ((State.sectorOk_iff ..).1 hsector).1, .inr (.inl rfl)⟩
  | busy | discarded => exact h
  | busyEnds hp =>
    obtain ⟨hsel, hsector, -⟩ := (State.pointOk_wBusy hp).1 h
    exact (State.pointOk_endDeselect .write rfl).2 ⟨hsel, hsector⟩
  | busyCounted bound hp hrx hn hmore =>
    obtain ⟨hsel, hsector, hpoll⟩ := (State.pointOk_wBusy hp).1 h
    refine (State.pointOk_wBusy (by exact hp)).2 ⟨hsel, hsector, fun bound' hb => ?_⟩
    cases hn.symm.trans hb
    exact Nat.lt_of_le_of_ne (hpoll bound hn) hmore
  | busyTimeout bound hp hrx hn =>
    obtain ⟨hsel, hsector, -⟩ := (State.pointOk_wBusy hp).1 h
    refine (State.pointOk_errDeselect .write rfl).2 ⟨hsel, ((State.sectorOk_iff ..).1 hsector).1, .inr (.inr ⟨rfl, ?_⟩)⟩
    exact fun hnone => absurd (hn.symm.trans hnone) nofun
  | busyEndsCounted bound hp =>
    obtain ⟨hsel, hsector, -⟩ := (State.pointOk_wBusy hp).1 h
    exact (State.pointOk_endDeselect .write rfl).2 ⟨hsel, hsector⟩

/-- The result stays, or is OK or Cmd0Failed, or is the error returned (R270, R271). -/
theorem State.Receives.result {rx : Byte} {s t : State} (hc : s.Receives rx t) :
    t.result = s.result ∨ t.result = .ok ∨ t.result = .cmd0Failed ∨ ∃ e : Engine, s.phase = e.errFiller ∧ t.result = s.err := by
  cases hc with
  | pollResume | trailResume => exact (State.resumes _).result.imp id fun h => .inr (.inl h)
  | lastSector => exact .inr (.inl rfl)
  | errFiller e hp => exact .inr (.inr (.inr ⟨e, hp, rfl⟩))
  | _ => exact .inl rfl

/-- Only a stored byte changes the buffer, and it stays canonical. -/
theorem State.Receives.bufWF {rx : Byte} {s t : State} (hc : s.Receives rx t) (h : s.buf.WF) : t.buf.WF := by
  cases hc with
  | readByte | lastReadByte => exact s.buf.write_WF _ rx h
  | pollResume | trailResume =>
    rw [State.resume_frame]
    exact h
  | _ => exact h

/-- WriteBusyTimeout is returned under a bound only (R110, R276). -/
theorem State.errOk_ne_busyTimeout (s : State) (e : Engine) (h : s.errOk e) (hnone : s.par.writeBusyBound = none) :
    s.err ≠ .writeBusyTimeout := by
  intro herr
  cases e <;> simp [State.errOk, herr, hnone] at h

/-- Receiving a byte keeps the invariant. -/
theorem State.Inv.receive {rx : Byte} {s t : State} (h : s.Inv) (hx : s.receive rx = .next t) : t.Inv := by
  have hframe := State.receive_frame rx s t hx
  have hcases := State.receives hx
  refine ⟨hcases.bufWF h.bufWF, hframe.par ▸ h.parWF, hcases.pointOk h.point h.parWF, hframe.ser ▸ h.serIdle,
    hframe.trace ▸ h.deselectedFillers, ?_⟩
  rw [hframe.par]
  intro hnone
  rcases hcases.result with hres | hres | hres | ⟨e, hp, hres⟩ <;> rw [hres]
  · exact h.noBusyTimeout hnone
  · nofun
  · nofun
  · obtain ⟨-, -, herr⟩ := (State.pointOk_errFiller e hp).1 h.point
    exact s.errOk_ne_busyTimeout e herr hnone

/-! ## The step -/

/-- Settles O12: the host's access keeps the invariant, and then each kind of step does. -/
theorem everyStepKeepsTheInvariant : Obligations.EveryStepKeepsTheInvariant := by
  intro s t h hstep
  cases hr : s.resetIn with
  | true =>
    rw [step, hr, if_pos rfl] at hstep
    cases hstep
    exact h.applyReset
  | false =>
    cases State.steps hr hstep with
    | idle _ haccepts => exact h.arrive.accepts haccepts
    | framer tlen ret hp => exact absurd h.point (by rw [State.pointOk_fSelect hp]; nofun)
    | control _ hcontrols => exact h.arrive.controls hcontrols
    | exchange tx _ htx hx => exact (h.arrive.exchange tx (s.arrive_phase.symm ▸ htx)).receive hx

/-! ## No run faults -/

/-- A sector to do has its bytes within the bound buffer (R60, U7). -/
theorem State.lt_bufLen_of_sectorOk (s : State) (op : BitVec 2) (h : s.sectorOk op = true) (hi : s.idx < Config.blockLen) :
    s.offset + s.idx < s.bufLen := by
  obtain ⟨-, hremain, -, hlen⟩ := (State.sectorOk_iff ..).1 h
  have hpos : 0 < s.remain.toNat := Nat.pos_of_ne_zero fun h0 => hremain (BitVec.eq_of_toNat_eq h0)
  simp only [Config.blockLen] at *
  omega

/-- In a state of the invariant a data byte is read or stored within the bound buffer. -/
theorem State.Inv.dataInBuffer {s : State} (h : s.Inv) (hp : s.phase = .rData ∨ s.phase = .wData) :
    s.offset + s.idx < s.bufLen := by
  rcases hp with hp | hp
  · obtain ⟨hi, -, hsector⟩ := (State.pointOk_rData hp).1 h.point
    exact s.lt_bufLen_of_sectorOk 2 hsector hi
  · obtain ⟨hi, -, hsector⟩ := (State.pointOk_wData hp).1 h.point
    exact s.lt_bufLen_of_sectorOk 3 hsector hi

/-- From a state of the invariant an operation in progress makes a step. -/
theorem State.Inv.step_completes {s : State} (h : s.Inv) (hr : s.resetIn = false) (hp : s.phase ≠ .idle) :
    ∃ t, step s = .next t := by
  have hframe : s.phase ≠ .fSelect := fun hf => by simpa only [State.pointOk_fSelect hf, Bool.false_eq_true] using h.point
  rw [step_eq s hr hp hframe]
  exact s.arrive.pointStep_completes h.arrive.dataInBuffer

/-- A request is refused while idle for its buffer alone (assumption 6). -/
theorem exec_request_stops (op : BitVec 2) (sector count : Word32) (i : Instr) (s : State)
    (hi : decodeRequest op sector count = .ok i) (hp : s.phase = .idle) :
    (∃ t, exec i s = .next t) ∨ exec i s = .refused .bufferTooShort := by
  have hidle : s.busy = false := by simp [State.busy, hp]
  unfold decodeRequest at hi
  split_ifs at hi <;> cases hi <;> simp only [exec, execInit, execReadBlocks, execWriteBlocks, hidle]
  · exact .inl ⟨_, rfl⟩
  all_goals
    rw [if_neg Bool.false_ne_true]
    split
    · exact .inr rfl
    · exact .inl ⟨_, rfl⟩

theorem step_idle_stops (s : State) (hr : s.resetIn = false) (hp : s.phase = .idle) :
    (∃ t, step s = .next t) ∨ step s = .refused .bufferTooShort := by
  by_cases hq : ∃ v q, s.hostQueue = .write .reqOp v :: q
  · obtain ⟨v, q, hq⟩ := hq
    rw [step_idle_request s v q hr hp hq]
    cases hd : decodeRequest (v.extractLsb' 0 2) s.reqSector s.reqCount with
    | ok i => exact exec_request_stops _ _ _ i _ hd hp
    | error e => exact .inl ⟨_, rfl⟩
  · exact .inl ⟨_, step_idle_access s hr hp fun v q hvq => hq ⟨v, q, hvq⟩⟩

/-- Settles O14: an operation in progress makes a step, and an idle block refuses a short buffer alone. -/
theorem noRunFaults : Obligations.NoRunFaults := by
  intro s h
  have hstops : (∃ t, step s = .next t) ∨ (s.phase = .idle ∧ step s = .refused .bufferTooShort) := by
    cases hr : s.resetIn with
    | true => exact .inl ⟨_, by rw [step, hr, if_pos rfl]⟩
    | false =>
      by_cases hp : s.phase = .idle
      · exact (step_idle_stops s hr hp).imp id fun h => ⟨hp, h⟩
      · exact .inl (h.step_completes hr hp)
  rcases hstops with ⟨t, hstep⟩ | ⟨hp, hstep⟩ <;> rw [hstep]
  · exact ⟨nofun, nofun⟩
  · exact ⟨nofun, fun r hr => ⟨hp, (Host.Outcome.refused.inj hr).symm⟩⟩

end Sys2Proof.Machine
end

section
/-! PROOFS. Every operation ends, but a write that waits on a busy card (60_exceptions.md): a measure of what is left to do,
which every other step of an operation lowers. -/

namespace Sys2Proof.Machine

/-! ## The measure -/

/-- The rounds left from a call of SendCommand on: the commands of INIT, or the sectors of a transfer (D13, R221). -/
def State.callRound (s : State) : RetPoint → Nat
  | .iCmd0 => 2 * Config.nAcmd41 + 5
  | .iCmd8 => 2 * Config.nAcmd41 + 4
  | .iLoop55 => 2 * (Config.nAcmd41 - s.retry) + 3
  | .iLoop41 => 2 * (Config.nAcmd41 - s.retry) + 2
  | .iCmd58 => 2
  | .rCmd17 | .wCmd24 => s.remain.toNat + 1

/-- The rounds left: a round ends when the next command of INIT or the next sector is due. -/
def State.round (s : State) : Nat :=
  match s.phase with
  | .idle => 0
  | .fSelect | .fTx | .fPoll | .fTrail => s.callRound s.ret
  | .iEntry | .iPowerup => 2 * Config.nAcmd41 + 6
  | .iCmd0 => s.callRound .iCmd0
  | .iCmd8 => s.callRound .iCmd8
  | .iLoop55 => s.callRound .iLoop55
  | .iLoop41 => s.callRound .iLoop41
  | .iCmd58 => s.callRound .iCmd58
  | .iFinDeselect | .iFinFiller | .iFinFast => 1
  | .rHead | .rCmd17 | .rToken | .rData | .rCrc | .rEndDeselect | .rEndFiller | .rErrDeselect | .rErrFiller | .wHead
  | .wCmd24 | .wGap | .wReselect | .wToken | .wData | .wCrc | .wResp | .wBusy | .wEndDeselect | .wEndFiller
  | .wErrDeselect | .wErrFiller => s.remain.toNat + 1

/-- The order of the program points within a round, the last one lowest. -/
def Phase.place : Phase → Nat
  | .iEntry => 23
  | .iPowerup | .rHead | .wHead => 22
  | .iCmd0 | .iCmd8 | .iLoop55 | .iLoop41 | .iCmd58 | .rCmd17 | .wCmd24 => 21
  | .fSelect => 20
  | .fTx => 19
  | .fPoll => 18
  | .fTrail => 17
  | .wGap => 16
  | .wReselect => 15
  | .wToken => 14
  | .wData => 13
  | .wCrc => 12
  | .wResp => 11
  | .wBusy => 10
  | .rToken => 9
  | .rData => 8
  | .rCrc => 7
  | .rEndDeselect | .wEndDeselect => 6
  | .rEndFiller | .wEndFiller => 5
  | .rErrDeselect | .wErrDeselect | .iFinDeselect => 4
  | .rErrFiller | .wErrFiller | .iFinFiller => 3
  | .iFinFast => 2
  | .idle => 1

/-- The exchanges left at a program point that counts them; the unbounded busy-wait counts none. -/
def State.left (s : State) : Nat :=
  match s.phase with
  | .fTx => Config.frameLen - s.idx
  | .fPoll => Config.nCmdPoll - s.poll
  | .fTrail => s.tlen.val - s.idx
  | .iPowerup => Config.nPowerup - s.idx
  | .rToken => Config.nTokenPoll - s.poll
  | .rData | .wData => Config.blockLen - s.idx
  | .rCrc | .wCrc => Config.nDataCrc - s.idx
  | .wBusy => s.par.writeBusyBound.elim 0 (· - s.poll)
  | _ => 0

/-- What is left to do, compared by rounds, then by the program point, then by its exchanges. -/
def State.rank (s : State) : ℕ ×ₗ ℕ ×ₗ ℕ := toLex (s.round, toLex (s.phase.place, s.left))

section
variable {s t : State}

theorem State.rank_lt_of_round (h : t.round < s.round) : t.rank < s.rank :=
  Prod.Lex.toLex_lt_toLex.2 (.inl h)

theorem State.rank_lt_of_place (p q : Phase) (hs : s.phase = p) (ht : t.phase = q) (hround : t.round = s.round)
    (h : q.place < p.place) : t.rank < s.rank :=
  Prod.Lex.toLex_lt_toLex.2 (.inr ⟨hround, Prod.Lex.toLex_lt_toLex.2 (.inl (hs ▸ ht ▸ h))⟩)

theorem State.rank_lt_of_left (hround : t.round = s.round) (hplace : t.phase.place = s.phase.place)
    (h : t.left < s.left) : t.rank < s.rank :=
  Prod.Lex.toLex_lt_toLex.2 (.inr ⟨hround, Prod.Lex.toLex_lt_toLex.2 (.inr ⟨hplace, h⟩)⟩)

end

/-! ## Every step but the wait on a busy card lowers it -/

/-- A call of SendCommand is in its caller's round. -/
theorem State.callCommand_rank_lt (s : State) (p : RetPoint) (q : Phase) (hp : s.phase = q)
    (hround : s.callRound p = s.round) (hq : Phase.place .fTx < q.place) : (s.callCommand p).rank < s.rank :=
  State.rank_lt_of_place q .fTx hp rfl (by cases p <;> exact hround) hq

/-- A control action of an operation lowers the measure. -/
theorem State.Controls.rank_lt {s t : State} (hc : s.Controls t) (hidle : s.phase ≠ .idle) (hframe : s.phase ≠ .fSelect) :
    t.rank < s.rank := by
  cases hc with
  | rest hp => exact absurd hp (not_or.2 ⟨hidle, hframe⟩)
  | initEntry hp =>
    exact State.rank_lt_of_place .iEntry .iPowerup hp rfl (by simp only [State.round, hp, State.initEntry]) (by decide)
  | call p hp =>
    exact s.callCommand_rank_lt p p.phase hp (by cases p <;> simp only [State.round, hp, RetPoint.phase, State.callRound])
      (by cases p <;> decide)
  | firstCall e hp =>
    exact s.callCommand_rank_lt e.caller e.head hp
      (by cases e <;> simp only [State.round, hp, Engine.head, Engine.caller, State.callRound]) (by cases e <;> decide)
  | noSectors e hp =>
    refine State.rank_lt_of_round ?_
    cases e <;> simp [State.round, hp, Engine.head]
  | finDeselect hp =>
    exact State.rank_lt_of_place .iFinDeselect .iFinFiller hp rfl (by simp only [State.round, hp]) (by decide)
  | endDeselect e hp =>
    exact State.rank_lt_of_place e.endDeselect e.endFiller hp rfl
      (by cases e <;> simp only [State.round, hp, Engine.endDeselect, Engine.endFiller, State.deselect])
      (by cases e <;> decide)
  | errDeselect e hp =>
    exact State.rank_lt_of_place e.errDeselect e.errFiller hp rfl
      (by cases e <;> simp only [State.round, hp, Engine.errDeselect, Engine.errFiller, State.deselect])
      (by cases e <;> decide)
  | reselect hp =>
    exact State.rank_lt_of_place .wReselect .wToken hp rfl (by simp only [State.round, hp, State.select]) (by decide)
  | initReady hp =>
    refine State.rank_lt_of_round ?_
    simp only [State.round, hp]
    exact Nat.one_pos

/-- The caller goes on in a lower round, or lower in its round. -/
theorem State.Resumes.lower {s t : State} (hc : s.Resumes t) (h : s.callerOk = true) :
    t.round < s.callRound s.ret ∨ (t.round = s.callRound s.ret ∧ t.phase.place < Phase.place .fTrail) := by
  have hbelow (p : Phase) (ht : t.phase = p) (hround : t.round = s.callRound s.ret) (hp : p.place < Phase.place .fTrail) :
      t.round < s.callRound s.ret ∨ (t.round = s.callRound s.ret ∧ t.phase.place < Phase.place .fTrail) :=
    .inr ⟨hround, ht ▸ hp⟩
  cases hc with
  | cmd17 hret => exact hbelow .rToken rfl (by rw [hret]; rfl) (by decide)
  | cmd24 hret => exact hbelow .wGap rfl (by rw [hret]; rfl) (by decide)
  | rejected e hret =>
    exact hbelow e.errDeselect rfl (by rw [hret]; cases e <;> rfl) (by cases e <;> decide)
  | cmd0Idle hret | cmd8 hret | cmd55 hret | cmd58 hret =>
    rw [hret]
    exact .inl (Nat.lt_succ_self _)
  | cmd0Failed hret =>
    rw [hret]
    exact .inl (Nat.succ_pos _)
  | loopAgain hret =>
    obtain ⟨-, hretry⟩ := s.callerOk_loop h (.inr hret)
    simp only [State.round, State.callRound, hret]
    omega
  | loopEndsV2 hret =>
    obtain ⟨-, hretry⟩ := s.callerOk_loop h (.inr hret)
    simp only [State.round, State.callRound, hret]
    omega
  | loopEndsLegacy hret =>
    simp only [State.round, State.callRound, hret]
    omega

/-- The end of a command exchange lowers the measure. -/
theorem State.resume_rank_lt (s s0 : State) (p : Phase) (hp : s0.phase = p) (hround : s.callRound s.ret = s0.round)
    (hplace : Phase.place .fTrail ≤ p.place) (h : s.callerOk = true) : s.resume.rank < s0.rank := by
  rcases s.resumes.lower h with hlower | ⟨hsame, hlower⟩
  · exact State.rank_lt_of_round (hround ▸ hlower)
  · exact State.rank_lt_of_place p s.resume.phase hp rfl (hsame.trans hround) (hlower.trans_le hplace)

/-- The next sector is a round less (R221). -/
theorem State.advanceSector_rank_lt (s t : State) (e : Engine) (hp : s.phase = e.endFiller) (hr : s.remain ≠ 0)
    (ht : t.round ≤ (s.remain - 1).toNat + 1) : t.rank < s.rank := by
  have hcount := toNat_sub_one s.remain hr
  have hround : s.round = s.remain.toNat + 1 := by
    cases e <;> simp only [State.round, hp, Engine.endFiller]
  exact State.rank_lt_of_round (by omega)

/-- A point lower in the same sector. -/
theorem State.sector_rank_lt (s t : State) (p q : Phase) (hp : s.phase = p) (ht : t.phase = q)
    (hs : s.round = s.remain.toNat + 1) (hround : t.round = s.remain.toNat + 1) (hplace : q.place < p.place) :
    t.rank < s.rank := State.rank_lt_of_place p q hp ht (hround.trans hs.symm) hplace

/-- Receiving a byte lowers the measure, but for the wait on a busy card without a bound. -/
theorem State.Receives.rank_lt {rx : Byte} {s t : State} (hc : s.Receives rx t) (h : s.pointOk = true)
    (hexchange : s.phase ∉ Phase.noExchange) :
    t.rank < s.rank ∨ (s.phase = .wBusy ∧ s.par.writeBusyBound = none ∧ t = s) := by
  cases hc with
  | busy hp hrx hn => exact .inr ⟨hp, hn, rfl⟩
  | discarded hp => exact absurd hp hexchange
  | frameByte hp hi | powerup hp hi | readByte hp _ hi | readCrc hp hi | writeByte hp hi | writeCrc hp hi =>
    refine .inl (State.rank_lt_of_left rfl rfl ?_)
    simp only [State.left, hp]
    omega
  | trailByte hp hi =>
    refine .inl (State.rank_lt_of_left (by simp only [State.round, hp]; rfl) (by rw [hp]) ?_)
    simp only [State.left, hp]
    omega
  | pollAgain hp =>
    obtain ⟨hpoll, -⟩ := (State.pointOk_fPoll hp).1 h
    refine .inl (State.rank_lt_of_left rfl rfl ?_)
    simp only [State.left, hp]
    omega
  | tokenMiss hp =>
    obtain ⟨hpoll, -⟩ := (State.pointOk_rToken hp).1 h
    refine .inl (State.rank_lt_of_left rfl rfl ?_)
    simp only [State.left, hp]
    omega
  | busyCounted bound hp _ hn =>
    obtain ⟨-, -, hpoll⟩ := (State.pointOk_wBusy hp).1 h
    have hless := hpoll bound hn
    refine .inl (State.rank_lt_of_left rfl rfl ?_)
    simp only [State.left, hp, hn, Option.elim_some]
    omega
  | lastFrameByte hp =>
    exact .inl (State.rank_lt_of_place .fTx .fPoll hp rfl (by simp only [State.round, hp]; rfl) (by decide))
  | pollTrail hp =>
    exact .inl (State.rank_lt_of_place .fPoll .fTrail hp rfl (by simp only [State.round, hp]; rfl) (by decide))
  | pollResume hp =>
    obtain ⟨-, -, -, hcaller⟩ := (State.framerOk_iff s).1 ((State.pointOk_fPoll hp).1 h).2
    exact .inl (State.resume_rank_lt _ s .fPoll hp (by simp only [State.round, hp]; rfl) (by decide) hcaller)
  | trailResume hp =>
    obtain ⟨-, -, -, hcaller⟩ := (State.framerOk_iff s).1 ((State.pointOk_fTrail hp).1 h).2
    exact .inl (State.resume_rank_lt _ s .fTrail hp (by simp only [State.round, hp]; rfl) (by decide) hcaller)
  | lastPowerup hp =>
    refine .inl (State.rank_lt_of_round ?_)
    simp only [State.round, hp]
    exact Nat.lt_succ_self _
  | finFiller hp =>
    exact .inl (State.rank_lt_of_place .iFinFiller .iFinFast hp rfl (by simp only [State.round, hp]) (by decide))
  | nextSector e hp =>
    obtain ⟨-, hremain, -⟩ := (State.sectorOk_iff ..).1 ((State.pointOk_endFiller e hp).1 h).2
    exact .inl (s.advanceSector_rank_lt _ e hp hremain (by cases e <;> exact le_rfl))
  | lastSector e hp =>
    obtain ⟨-, hremain, -⟩ := (State.sectorOk_iff ..).1 ((State.pointOk_endFiller e hp).1 h).2
    exact .inl (s.advanceSector_rank_lt _ e hp hremain (Nat.zero_le _))
  | errFiller e hp =>
    refine .inl (State.rank_lt_of_round ?_)
    cases e <;> simp [State.round, hp, Engine.errFiller]
  | startToken hp => exact .inl (s.sector_rank_lt _ .rToken .rData hp rfl (by simp only [State.round, hp]) rfl (by decide))
  | tokenTimeout hp =>
    exact .inl (s.sector_rank_lt _ .rToken .rErrDeselect hp rfl (by simp only [State.round, hp]) rfl (by decide))
  | lastReadByte hp => exact .inl (s.sector_rank_lt _ .rData .rCrc hp rfl (by simp only [State.round, hp]) rfl (by decide))
  | lastReadCrc hp =>
    exact .inl (s.sector_rank_lt _ .rCrc .rEndDeselect hp rfl (by simp only [State.round, hp]) rfl (by decide))
  | gap hp => exact .inl (s.sector_rank_lt _ .wGap .wReselect hp rfl (by simp only [State.round, hp]) rfl (by decide))
  | tokenSent hp => exact .inl (s.sector_rank_lt _ .wToken .wData hp rfl (by simp only [State.round, hp]) rfl (by decide))
  | lastWriteByte hp => exact .inl (s.sector_rank_lt _ .wData .wCrc hp rfl (by simp only [State.round, hp]) rfl (by decide))
  | lastWriteCrc hp => exact .inl (s.sector_rank_lt _ .wCrc .wResp hp rfl (by simp only [State.round, hp]) rfl (by decide))
  | accepted hp | acceptedBounded _ hp =>
    exact .inl (s.sector_rank_lt _ .wResp .wBusy hp rfl (by simp only [State.round, hp]) rfl (by decide))
  | responseRejected hp =>
    exact .inl (s.sector_rank_lt _ .wResp .wErrDeselect hp rfl (by simp only [State.round, hp]) rfl (by decide))
  | busyTimeout _ hp =>
    exact .inl (s.sector_rank_lt _ .wBusy .wErrDeselect hp rfl (by simp only [State.round, hp]) rfl (by decide))
  | busyEnds hp | busyEndsCounted _ hp =>
    exact .inl (s.sector_rank_lt _ .wBusy .wEndDeselect hp rfl (by simp only [State.round, hp]) rfl (by decide))

/-- The measure does not read what the host writes while the block is busy. -/
theorem State.arrive_rank (s : State) (hp : s.phase ≠ .idle) : s.arrive.rank = s.rank := by
  rw [s.arrive_eq_busy hp]
  rfl

/-- A step of an operation lowers the measure, or waits on a busy card without a bound. -/
theorem step_rank_lt (s t : State) (h : s.Inv) (hr : s.resetIn = false) (hp : s.phase ≠ .idle) (hstep : step s = .next t) :
    t.rank < s.rank ∨ (s.phase = .wBusy ∧ t.phase = .wBusy ∧ s.par.writeBusyBound = none ∧ t.rank = s.rank) := by
  have hframe : s.phase ≠ .fSelect := fun hf => absurd h.point (by rw [State.pointOk_fSelect hf]; nofun)
  have hrank := s.arrive_rank hp
  cases State.steps hr hstep with
  | idle hidle => exact absurd hidle hp
  | framer _ _ hf => exact absurd hf hframe
  | control _ hcontrol =>
    exact .inl (hrank ▸ hcontrol.rank_lt (by rwa [s.arrive_phase]) (by rwa [s.arrive_phase]))
  | exchange tx hx htx hreceive =>
    have hpoint := (h.arrive.exchange tx (s.arrive_phase.symm ▸ htx)).point
    have hpoints : (s.arrive.exchange tx).phase = s.phase := s.arrive_phase
    rcases (State.exchange_receives hreceive).rank_lt hpoint (by rwa [hpoints]) with hlt | ⟨hbusy, hnone, rfl⟩
    · exact .inl (hrank ▸ hlt)
    · rw [hpoints] at hbusy
      exact .inr ⟨hbusy, hpoints.trans hbusy, s.arrive_par ▸ hnone, hrank⟩

/-! ## Runs -/

/-- What a run of an operation keeps: the invariant, the reset input, the operation and the parameters. -/
structure State.Follows (s t : State) : Prop where
  inv : t.Inv
  resetIn : t.resetIn = false
  reqOp : t.reqOp = s.reqOp
  par : t.par = s.par

theorem State.Follows.trans {s t u : State} (h : s.Follows t) (h' : t.Follows u) : s.Follows u :=
  ⟨h'.inv, h'.resetIn, h'.reqOp.trans h.reqOp, h'.par.trans h.par⟩

theorem State.Controls.par {s t : State} (hc : s.Controls t) : t.par = s.par := hc.frame.2.1

/-- Each step of an operation keeps them. -/
theorem State.Follows.step {s t : State} (h : s.Inv) (hr : s.resetIn = false) (hp : s.phase ≠ .idle)
    (hstep : step s = .next t) : s.Follows t := by
  have hframe : s.phase ≠ .fSelect := fun hf => absurd h.point (by rw [State.pointOk_fSelect hf]; nofun)
  have hpar : t.par = s.par := by
    cases State.steps hr hstep with
    | idle hidle => exact absurd hidle hp
    | framer => exact s.arrive_par
    | control _ hcontrol => exact hcontrol.par.trans s.arrive_par
    | exchange tx _ _ hx => exact (State.receive_frame _ _ _ hx).par.trans s.arrive_par
  have hpoint : s.arrive.pointStep = .next t := (step_eq s hr hp hframe).symm.trans hstep
  obtain ⟨hreset, -, -, -, hop⟩ := State.pointStep_host _ _ hpoint
  exact ⟨everyStepKeepsTheInvariant s t h hstep, hreset.trans (s.arrive_resetIn.trans hr), hop.trans s.arrive_reqOp, hpar⟩

/-- At the unbounded busy-wait a run of any length waits, or has left it with less to do. -/
theorem run_waits_or_progresses (m : Nat) (s : State) (h : s.Follows s) (hp : s.phase = .wBusy) :
    (∃ t, run m s = .next t ∧ s.Follows t ∧ t.phase = .wBusy ∧ t.rank = s.rank) ∨
      ∃ (k : Nat) (t : State), run k s = .next t ∧ s.Follows t ∧ t.rank < s.rank := by
  induction m with
  | zero => exact .inl ⟨s, rfl, h, hp, rfl⟩
  | succ m ih =>
    rcases ih with ⟨t, hrun, hfollows, hbusy, hrank⟩ | hprogress
    · have hidle : t.phase ≠ .idle := by simp [hbusy]
      obtain ⟨u, hstep⟩ := hfollows.inv.step_completes hfollows.resetIn hidle
      have hnext : run (m + 1) s = .next u := (run_snoc m hrun).trans hstep
      have hfollows' := hfollows.trans (.step hfollows.inv hfollows.resetIn hidle hstep)
      rcases step_rank_lt t u hfollows.inv hfollows.resetIn hidle hstep with hlt | ⟨-, hbusy', -, hsame⟩
      · exact .inr ⟨m + 1, u, hnext, hfollows', hrank ▸ hlt⟩
      · exact .inl ⟨u, hnext, hfollows', hbusy', hsame.trans hrank⟩
    · exact .inr hprogress

/-- From a state of the invariant a run ends the operation, or from some step on waits on a busy card without a bound. -/
theorem run_ends_or_waits (s : State) (h : s.Follows s) (hp : s.phase ≠ .idle) :
    (∃ (n : Nat) (t : State), run n s = .next t ∧ t.phase = .idle) ∨
      ∃ n : Nat, ∀ m : Nat, n ≤ m → ∃ t : State, run m s = .next t ∧ s.Follows t ∧ t.phase = .wBusy ∧
        s.par.writeBusyBound = none := by
  induction hrank : s.rank using WellFoundedLT.induction generalizing s with
  | ind r ih =>
    subst hrank
    have hlater (k : Nat) (t : State) (hrun : run k s = .next t) (hfollows : s.Follows t) (hlt : t.rank < s.rank) :
        (∃ (n : Nat) (t : State), run n s = .next t ∧ t.phase = .idle) ∨
          ∃ n : Nat, ∀ m : Nat, n ≤ m → ∃ t : State, run m s = .next t ∧ s.Follows t ∧ t.phase = .wBusy ∧
            s.par.writeBusyBound = none := by
      by_cases hidle : t.phase = .idle
      · exact .inl ⟨k, t, hrun, hidle⟩
      rcases ih t.rank hlt t ⟨hfollows.inv, hfollows.resetIn, rfl, rfl⟩ hidle rfl with ⟨n, u, hrest, hend⟩ | ⟨n, hwaits⟩
      · exact .inl ⟨k + n, u, (run_add k n hrun).trans hrest, hend⟩
      · refine .inr ⟨k + n, fun m hm => ?_⟩
        obtain ⟨u, hrest, hfollows', hbusy, hn⟩ := hwaits (m - k) (by omega)
        rw [← Nat.add_sub_cancel' (show k ≤ m by omega), run_add k (m - k) hrun]
        exact ⟨u, hrest, hfollows.trans hfollows', hbusy, hfollows.par ▸ hn⟩
    obtain ⟨t, hstep⟩ := h.inv.step_completes h.resetIn hp
    rcases step_rank_lt s t h.inv h.resetIn hp hstep with hlt | ⟨hbusy, -, hn, -⟩
    · exact hlater 1 t ((run_one s).trans hstep) (.step h.inv h.resetIn hp hstep) hlt
    by_cases hprogress : ∃ (k : Nat) (t : State), run k s = .next t ∧ s.Follows t ∧ t.rank < s.rank
    · obtain ⟨k, t, hrun, hfollows, hlt⟩ := hprogress
      exact hlater k t hrun hfollows hlt
    · refine .inr ⟨0, fun m _ => ?_⟩
      obtain ⟨t, hrun, hfollows, hbusy', -⟩ := (run_waits_or_progresses m s h hbusy).resolve_right hprogress
      exact ⟨t, hrun, hfollows, hbusy', hn⟩

/-- Settles O20: the measure cannot fall for ever. -/
theorem everyOperationEndsOrWaitsOnABusyCard : Obligations.EveryOperationEndsOrWaitsOnABusyCard := by
  intro s h hr hp
  refine (run_ends_or_waits s ⟨h, hr, rfl, rfl⟩ hp).imp id fun ⟨n, hwaits⟩ => ⟨n, fun m hm => ?_⟩
  obtain ⟨t, hrun, -, hbusy, -⟩ := hwaits m hm
  exact ⟨t, hrun, hbusy⟩

/-- Settles O21: what waits on a busy card is a write without a bound. -/
theorem onlyAnUnboundedWriteCanHang : Obligations.OnlyAnUnboundedWriteCanHang := by
  intro s h hr hp hbounded
  refine (run_ends_or_waits s ⟨h, hr, rfl, rfl⟩ hp).resolve_right fun ⟨n, hwaits⟩ => ?_
  obtain ⟨t, -, hfollows, hbusy, hn⟩ := hwaits n le_rfl
  obtain ⟨-, hsector, -⟩ := (State.pointOk_wBusy hbusy).1 hfollows.inv.point
  obtain ⟨hop, -⟩ := (State.sectorOk_iff ..).1 hsector
  exact hbounded.elim (fun h3 => h3 (hfollows.reqOp.symm.trans hop)) fun hb => hb hn

end Sys2Proof.Machine
end

section
/-! PROOFS. The instruction due (30_encoding.md, 10_state.md section 5): what is fetched, by whichever name it is read, and a
table word placed in the machine. -/

namespace Sys2Proof.Machine

/-! ## The instruction fetched and the host's access -/

theorem step_fetched (s : State) (i : Instr) (hr : s.resetIn = false) (hi : s.fetch = some i) :
    step s = exec i s.arrive := by
  simp only [step, hr, hi, Bool.false_eq_true, if_false]

/-- An access that need not wait is taken. -/
theorem State.arrive_cons (s : State) (a : HostAccess) (q : List HostAccess) (hq : s.hostQueue = a :: q)
    (ha : s.phase = .idle ∨ a.needsIdle = false) : s.arrive = { s with hostQueue := q }.access a := by
  have htaken : (s.busy && a.needsIdle) = false := by
    rcases ha with hp | ha
    · simp [State.busy, hp]
    · rw [ha, Bool.and_false]
  simp only [State.arrive, hq, htaken, Bool.false_eq_true, if_false]

/-- An access that waits changes nothing (assumption 5). -/
theorem State.arrive_waits (s : State) (a : HostAccess) (q : List HostAccess) (hq : s.hostQueue = a :: q)
    (hp : s.phase ≠ .idle) (ha : a.needsIdle = true) : s.arrive = s := by
  have hwaits : (s.busy && a.needsIdle) = true := by simp [State.busy, hp, ha]
  simp only [State.arrive, hq, hwaits, if_true]

/-- Settles O9: the instruction fetched is run, and each access is taken or waits. -/
theorem stepRunsTheInstructionDue : Obligations.StepRunsTheInstructionDue := by
  refine ⟨step_fetched, fun s => ⟨s.arrive_nil, fun v bytes q => ⟨fun hq => ?_, fun hq => ?_, fun hq => ?_, fun hq => ?_,
    fun hq => ?_, fun hq => ?_⟩⟩⟩
  case refine_1 | refine_2 | refine_3 | refine_4 => exact s.arrive_cons _ q hq (.inr rfl)
  case refine_5 =>
    split
    · rename_i htaken
      exact s.arrive_cons _ q hq (htaken.imp id fun h0 => by simpa [HostAccess.needsIdle] using h0)
    · rename_i hwaits
      obtain ⟨hp, h0⟩ := not_or.1 hwaits
      exact s.arrive_waits _ q hq hp (by simpa [HostAccess.needsIdle] using h0)
  case refine_6 =>
    split
    · exact s.arrive_cons _ q hq (.inl ‹_›)
    · exact s.arrive_waits _ q hq ‹_› rfl

/-! ## The names of an exchange -/

/-- The formats in which the byte received at a program point names the exchange (R106, R109). -/
def State.receiveFormats (s : State) : List Format :=
  match s.phase with
  | .fPoll => [.r1Test, .r1Poll]
  | .fTrail => s.trailFormats
  | .rToken => [.readToken]
  | .wResp => [.dataResponse]
  | .wBusy => [.busy]
  | _ => []

/-- A format of the trailing bytes names the exchange by its caller and place (R95). -/
theorem State.mem_trailFormats (s : State) (f : Format) (h : f ∈ s.trailFormats) :
    (f = .r7Byte2 ∧ s.idx = 2) ∨ (f = .r7Byte3 ∧ s.idx = 3) ∨ (f = .ocrByte0 ∧ s.idx = 0) := by
  unfold State.trailFormats at h
  split at h <;> simp_all

/-- Read by the byte received, an exchange is the exchange of its point (assumption 3). -/
theorem exec_received (s : State) (f : Format) (i : Instr) (hf : f ∈ s.receiveFormats)
    (hi : decodeToken f s.draw = .ok i) : exec i s.arrive = s.arrive.exchangeAndReceive Config.filler := by
  have hexchange : s.arrive.exchangeAndReceive Config.filler =
      (s.arrive.exchangeWith Config.filler s.draw).receive s.draw := by
    rw [State.exchangeAndReceive, State.exchange, s.arrive_draw]
  rw [hexchange, State.receive, State.exchangeWith_phase, s.arrive_phase]
  unfold State.receiveFormats at hf
  cases hp : s.phase <;> simp only [hp, List.mem_cons, List.not_mem_nil, or_false] at hf
  case fPoll =>
    rcases hf with rfl | rfl <;> simp only [decodeToken] at hi
    · split_ifs at hi with h1 h0 <;> cases hi
      · rw [h1]; rfl
      · rw [h0]; rfl
    · split_ifs at hi
      cases hi
      rfl
  case fTrail =>
    rw [State.exchangeWith_idx, s.arrive_idx]
    rcases s.mem_trailFormats f hf with ⟨rfl, hidx⟩ | ⟨rfl, hidx⟩ | ⟨rfl, hidx⟩ <;> simp only [decodeToken] at hi <;>
      split_ifs at hi with hb <;> cases hi <;> rw [hidx]
    · rw [hb]; rfl
    · rw [hb]; rfl
    · rfl
  case rToken =>
    subst hf
    simp only [decodeToken] at hi
    split_ifs at hi with hb
    cases hi
    rw [hb]; rfl
  case wResp =>
    subst hf
    simp only [decodeToken] at hi
    split_ifs at hi with hb
    cases hi
    rfl
  case wBusy =>
    subst hf
    simp only [decodeToken] at hi
    split_ifs at hi with hb
    cases hi
    rw [hb]; rfl

/-- The words due: none, one, or the names of an exchange that sends FILLER. -/
theorem State.dueWords_cases (s : State) :
    s.dueWords.length ≤ 1 ∨
      (s.dueWords = s.receiveWords s.receiveFormats ∧ s.phase ≠ .idle ∧ s.phase ≠ .fSelect ∧
        s.arrive.pointStep = s.arrive.exchangeAndReceive Config.filler) := by
  unfold State.pointStep
  rw [s.arrive_phase]
  cases hp : s.phase
  case idle =>
    left
    simp only [State.dueWords, hp]
    split <;> simp
  case rHead | wHead =>
    left
    simp only [State.dueWords, hp]
    split <;> simp [State.callWord]
  case fPoll | fTrail | rToken | wResp | wBusy | iPowerup | iFinFiller | rData | rCrc | rEndFiller | rErrFiller | wGap |
      wEndFiller | wErrFiller =>
    exact .inr ⟨by simp only [State.dueWords, State.receiveFormats, hp], by decide, by decide, rfl⟩
  all_goals exact .inl (by simp [State.dueWords, hp, State.callWord])

theorem firstDecoded_ok (f : Format) (bytes : List Byte) (i : Instr) (words : List (Format × List Byte))
    (hi : decode f bytes = .ok i) : firstDecoded ((f, bytes) :: words) = some i := by
  simp only [firstDecoded, hi]

theorem firstDecoded_error (f : Format) (bytes : List Byte) (e : DecodeError) (words : List (Format × List Byte))
    (he : decode f bytes = .error e) : firstDecoded ((f, bytes) :: words) = firstDecoded words := by
  simp only [firstDecoded, he]

/-- Settles O10: the one word due is fetched, and each name of an exchange is the exchange. -/
theorem everyReadingOfAWordDueIsTheStep : Obligations.EveryReadingOfAWordDueIsTheStep := by
  intro s f bytes i hr hmem hi
  rcases s.dueWords_cases with hone | ⟨hdue, hidle, hframe, hpoint⟩
  · have hdue : s.dueWords = [(f, bytes)] := by
      obtain ⟨w, hw⟩ := List.length_eq_one_iff.1 (le_antisymm hone (List.length_pos_of_mem hmem))
      rw [hw] at hmem ⊢
      rw [List.mem_singleton.1 hmem]
    exact step_fetched s i hr (by rw [State.fetch, hdue, firstDecoded_ok f bytes i [] hi])
  · rw [step_eq s hr hidle hframe, hpoint]
    rw [hdue, State.receiveWords, List.mem_append, List.mem_map, List.mem_singleton] at hmem
    rcases hmem with ⟨g, hg, heq⟩ | heq
    · cases heq
      refine (exec_received s f i hg ?_).symm
      rwa [← decode_token f s.draw (by rintro rfl; cases hi) (by rintro rfl; cases hi)]
    · cases heq
      cases hi
      rfl

/-! ## A table word placed -/

/-- What the first reading that decodes is. -/
theorem mem_of_firstDecoded (words : List (Format × List Byte)) (i : Instr) (h : firstDecoded words = some i) :
    ∃ w ∈ words, decode w.1 w.2 = .ok i := by
  induction words with
  | nil => cases h
  | cons w words ih =>
    obtain ⟨f, bytes⟩ := w
    cases hd : decode f bytes with
    | ok j =>
      rw [firstDecoded, hd] at h
      cases h
      exact ⟨(f, bytes), List.mem_cons_self .., hd⟩
    | error e =>
      rw [firstDecoded, hd] at h
      obtain ⟨w, hw, hdecode⟩ := ih h
      exact ⟨w, List.mem_cons_of_mem _ hw, hdecode⟩

/-- A bare byte that a test of R1 names is not read as R1_VALID (assumption 4). -/
theorem decodeTableWord_r1Valid (nbits w : Nat) (b : Byte) (h : decodeTableWord nbits w = some (.r1Valid b)) :
    b ≠ 0x01 ∧ b ≠ 0x00 := by
  unfold decodeTableWord at h
  split at h
  case isFalse => cases h
  case isTrue =>
    obtain ⟨⟨f, bytes⟩, hmem, hi⟩ := mem_of_firstDecoded _ _ h
    obtain ⟨-, hformat, hencode⟩ := decodedWordsEncodeBack f bytes _ hi
    unfold tableReadings at h hmem
    split_ifs at h hmem
    · cases List.mem_singleton.1 hmem
      cases hformat
    · cases List.mem_singleton.1 hmem
      cases hformat
    · obtain ⟨g, -, hg⟩ := List.mem_map.1 hmem
      cases hg
      rw [← show [b] = tableBytes 1 w from hencode] at h
      constructor <;> rintro rfl <;> cases h
    · cases hmem

/-- A table word decodes to a well-formed instruction. -/
theorem decodeTableWord_wf (nbits w : Nat) (i : Instr) (h : decodeTableWord nbits w = some i) : i.wf = true := by
  unfold decodeTableWord at h
  split at h
  · obtain ⟨word, -, hi⟩ := mem_of_firstDecoded _ _ h
    exact (decodedWordsEncodeBack word.1 word.2 i hi).1
  · cases h

/-- A frame in FRAME with the framer entered is the word due. -/
theorem fetch_placeFrame (index : BitVec 6) (argument : Word32) (crc : Byte) (s : State) (i : Instr)
    (hi : decodeFrame index argument crc = .ok i) :
    State.fetch { s.placeFrame index argument crc with resetIn := false } = some i :=
  firstDecoded_frame ⟨index, argument, crc⟩ i hi

/-- A request in the host's queue is the word due. -/
theorem fetch_placeRequest (op : BitVec 2) (sector count : Word32) (s : State) (i : Instr)
    (hi : decodeRequest op sector count = .ok i) :
    State.fetch { s.placeRequest op sector count with resetIn := false } = some i := by
  refine firstDecoded_ok .hostReq _ i [] ?_
  rw [decode_request_bytes, request_op_extract]
  exact hi

/-- Each instruction placed is the one fetched. -/
theorem fetch_place (i : Instr) (s : State) (hwf : i.wf = true) (hr1 : ∀ b, i = .r1Valid b → b ≠ 0x01 ∧ b ≠ 0x00) :
    State.fetch { s.place i with resetIn := false } = some i := by
  cases i with
  | cmd0 | cmd8 | cmd55 | acmd41V2 | acmd41Legacy | cmd58 | cmd17 | cmd24 => exact fetch_placeFrame _ _ _ s _ rfl
  | init | readBlocks | writeBlocks => exact fetch_placeRequest _ _ _ s _ rfl
  | filler | startTokenTx | dummyCrc | r1Idle | r1Ready | startTokenRx | busyByte | echoVolt | echoPattern => rfl
  | r1Valid b =>
    obtain ⟨h1, h0⟩ := hr1 b rfl
    have htest : decode .r1Test [b] = .error .notAToken := (if_neg h1).trans (if_neg h0)
    exact (firstDecoded_error _ _ _ _ htest).trans (firstDecoded_ok .r1Poll [b] _ _ (if_pos (beq_iff_eq.1 hwf)))
  | dataAccepted b => exact firstDecoded_ok .dataResponse [b] _ _ (if_pos (beq_iff_eq.1 hwf))
  | ocrCcs b => exact firstDecoded_ok .ocrByte0 [b] _ _ (if_pos (beq_iff_eq.1 hwf))

/-- Each instruction placed completes: a request finds the block idle and its buffer large enough. -/
theorem exec_place (i : Instr) (s : State) : ∃ t, exec i (State.arrive { s.place i with resetIn := false }) = .next t := by
  have hrequest (op : BitVec 2) (sector count : Word32) :
      (State.arrive { s.placeRequest op sector count with resetIn := false }).busy = false ∧
        ¬ (State.arrive { s.placeRequest op sector count with resetIn := false }).bufLen < count.toNat * Config.blockLen :=
    ⟨State.arrive_busy _, not_lt.2 (le_max_right ..)⟩
  cases i with
  | filler => exact State.receive_completes _ _ fun hp => by simp [State.exchange, State.place] at hp
  | init sector count => exact ⟨_, by rw [exec, execInit, State.place, (hrequest 1 sector count).1]; rfl⟩
  | readBlocks sector count =>
    obtain ⟨hidle, hlen⟩ := hrequest 2 sector count
    exact ⟨_, by rw [exec, execReadBlocks, State.place, hidle, if_neg hlen]; rfl⟩
  | writeBlocks sector count =>
    obtain ⟨hidle, hlen⟩ := hrequest 3 sector count
    exact ⟨_, by rw [exec, execWriteBlocks, State.place, hidle, if_neg hlen]; rfl⟩
  | _ => exact ⟨_, rfl⟩

/-- Settles O8: a table word decodes to an instruction that is fetched where it is placed, and completes. -/
theorem placedTableWordsRun : Obligations.PlacedTableWordsRun := by
  intro nbits w i s hi
  have hplaced : s.withFetchWord nbits w = { s.place i with resetIn := false } := by rw [State.withFetchWord, hi]
  have hfetch := fetch_place i s (decodeTableWord_wf nbits w i hi) fun b hb =>
    decodeTableWord_r1Valid nbits w b (hi.trans (congrArg some hb))
  obtain ⟨t, ht⟩ := exec_place i s
  rw [hplaced]
  exact ⟨hfetch, t, (step_fetched _ i rfl hfetch).trans ht, ht⟩

end Sys2Proof.Machine
end

section
/-! PROOFS. What a step changes and what it leaves (10_state.md sections 2 to 6, 20_memory.md section 1, 40_bus_driver.md):
the bus, the card state, the buffer, the sector counters, and what does not steer it. -/

namespace Sys2Proof.Machine

/-! ## One exchange a step -/

/-- A control action takes no answer of the card. -/
theorem State.Controls.card {s t : State} (hc : s.Controls t) : t.card = s.card := by
  cases hc <;> rfl

/-- Settles O11: only an exchange writes the trace and takes an answer, and it leaves the lines. -/
theorem aStepMakesAtMostOneExchange : Obligations.AStepMakesAtMostOneExchange := by
  intro s t hr hstep
  cases State.steps hr hstep with
  | idle _ haccepts => cases haccepts <;> exact .inl ⟨s.arrive_trace, s.arrive_card⟩
  | framer => exact .inl ⟨s.arrive_trace, s.arrive_card⟩
  | control _ hcontrol =>
    obtain ⟨-, -, -, htrace⟩ := hcontrol.frame
    exact .inl ⟨htrace.trans s.arrive_trace, hcontrol.card.trans s.arrive_card⟩
  | exchange tx _ _ hx =>
    have hframe := State.receive_frame _ _ _ hx
    exact .inr ⟨tx, by simpa [State.exchange] using hframe.trace, hframe.card.trans (congrArg CardSource.advance s.arrive_card),
      hframe.sel.trans s.arrive_sel, hframe.clk.trans s.arrive_clk⟩

/-! ## The card state and the clock -/

/-- The clock and `initialized` are written by the first and the last control action of INIT (R181, R191). -/
theorem State.Controls.clock {s t : State} (hc : s.Controls t) :
    (t.clk = s.clk ∧ t.initialized = s.initialized) ∨ s.phase = .iEntry ∨ s.phase = .iFinFast := by
  cases hc with
  | initEntry hp => exact .inr (.inl hp)
  | initReady hp => exact .inr (.inr hp)
  | _ => exact .inl ⟨rfl, rfl⟩

/-- The capacity class is written by the first control action of INIT (R181). -/
theorem State.Controls.capacityClass {s t : State} (hc : s.Controls t) :
    t.capacityClass = s.capacityClass ∨ s.phase = .iEntry := by
  cases hc with
  | initEntry hp => exact .inr hp
  | _ => exact .inl rfl

/-- The exchange at which a command exchange is over: the last of the poll with no trailing byte, or the last trailing one. -/
def State.EndsCommand (rx : Byte) (s : State) : Prop :=
  (s.phase = .fPoll ∧ s.tlen = 0 ∧ (rx.msb = false ∨ s.poll + 1 = 500)) ∨ (s.phase = .fTrail ∧ s.tlen.val ≤ s.idx + 1)

/-- A byte received writes the capacity class only at the end of INIT's CMD41 or CMD58 (R188, R190). -/
theorem State.Receives.capacityClass {rx : Byte} {s t : State} (hc : s.Receives rx t) :
    t.capacityClass = s.capacityClass ∨ ((s.ret = .iLoop41 ∨ s.ret = .iCmd58) ∧ s.EndsCommand rx) := by
  have hresume (u : State) (hret : u.ret = s.ret) (hclass : u.capacityClass = s.capacityClass) (hend : s.EndsCommand rx) :
      u.resume.capacityClass = s.capacityClass ∨ ((s.ret = .iLoop41 ∨ s.ret = .iCmd58) ∧ s.EndsCommand rx) := by
    by_cases hcaller : s.ret = .iLoop41 ∨ s.ret = .iCmd58
    · exact .inr ⟨hcaller, hend⟩
    · rw [← hret] at hcaller
      obtain ⟨h41, h58⟩ := not_or.1 hcaller
      exact .inl ((u.resume_capacityClass h41 h58).trans hclass)
  cases hc with
  | pollResume hp hend ht =>
    have htlen : s.tlen = 0 := Fin.ext (Nat.eq_zero_of_not_pos ht)
    exact hresume _ rfl rfl (.inl ⟨hp, htlen, hend.imp (by simp [endsR1Poll]) id⟩)
  | trailResume hp hi => exact hresume _ rfl rfl (.inr ⟨hp, not_lt.1 hi⟩)
  | _ => exact .inl rfl

/-- Settles O15: the writers of the card state are control actions of INIT and the ends of its CMD41 and CMD58. -/
theorem onlyInitWritesCardStateAndClock : Obligations.OnlyInitWritesCardStateAndClock := by
  intro s t hr hstep
  have hsame (hclk : t.clk = s.clk) (hinit : t.initialized = s.initialized) :
      t.clk ≠ s.clk ∨ t.initialized ≠ s.initialized → s.phase = .iEntry ∨ s.phase = .iFinFast :=
    fun h => h.elim (absurd hclk) (absurd hinit)
  cases State.steps hr hstep with
  | idle _ haccepts =>
    cases haccepts <;>
      exact ⟨hsame s.arrive_clk s.arrive_initialized, fun h => absurd s.arrive_capacityClass h⟩
  | framer => exact ⟨hsame s.arrive_clk s.arrive_initialized, fun h => absurd s.arrive_capacityClass h⟩
  | control _ hcontrol =>
    have hclock := hcontrol.clock
    have hclass := hcontrol.capacityClass
    simp only [State.arrive_clk, State.arrive_initialized, State.arrive_phase, State.arrive_capacityClass] at hclock hclass
    exact ⟨fun h => hclock.resolve_left fun heq => h.elim (absurd heq.1) (absurd heq.2),
      fun h => .inl (hclass.resolve_left h)⟩
  | exchange tx _ _ hx =>
    have hframe := State.receive_frame _ _ _ hx
    have hclass := (State.exchange_receives hx).capacityClass
    simp only [State.EndsCommand, State.exchange, State.exchangeWith_capacityClass, State.exchangeWith_ret,
      State.exchangeWith_phase, State.exchangeWith_tlen, State.exchangeWith_poll, State.exchangeWith_idx,
      State.arrive_capacityClass, State.arrive_ret, State.arrive_phase, State.arrive_tlen, State.arrive_poll,
      State.arrive_idx, State.arrive_draw] at hclass
    exact ⟨hsame (hframe.clk.trans s.arrive_clk) (hframe.initialized.trans s.arrive_initialized),
      fun h => .inr (hclass.resolve_left h)⟩

/-! ## The host beside a busy block -/

/-- An exchange refuses nothing. -/
theorem State.receive_ne_refused (rx : Byte) (s : State) (r : Refusal) : s.receive rx ≠ .refused r := by
  unfold State.receive
  cases s.phase <;> dsimp only
  case rData => split <;> nofun
  all_goals nofun

theorem State.pointStep_ne_refused (s : State) (r : Refusal) : s.pointStep ≠ .refused r := by
  have hexchange (tx : Byte) : s.exchangeAndReceive tx ≠ .refused r := State.receive_ne_refused _ _ r
  unfold State.pointStep
  cases s.phase <;> dsimp only
  case wData =>
    unfold State.sendDataByte
    split
    · exact hexchange _
    · nofun
  case fTx | wToken | wCrc | fPoll | fTrail | iPowerup | iFinFiller | rToken | rData | rCrc | rEndFiller | rErrFiller |
      wGap | wResp | wBusy | wEndFiller | wErrFiller => exact hexchange _
  all_goals nofun

/-- The step of a busy block is one outcome, whatever the host has written and writes: beside it, what arriving leaves. -/
theorem step_busy_hostOf (s : State) (hr : s.resetIn = false) (hp : s.phase ≠ .idle) :
    ∃ o : Host.Outcome State Fault Refusal,
      (∀ h : State, step (h.hostOf s) = mapNext (h.hostOf s).arrive.hostOf o) ∧ (∀ r, o ≠ .refused r) ∧
        ∀ t, o = .next t → t.reqOp = s.reqOp := by
  have harrive (h : State) : (h.hostOf s).arrive = (h.hostOf s).arrive.hostOf s := (h.hostOf s).arrive_eq_busy hp
  by_cases hframe : s.phase = .fSelect
  · obtain ⟨tlen, ret, hstep⟩ | hstep := step_fSelect s.frame
    · refine ⟨.next (s.sendCommand s.frame.index s.frame.argument s.frame.crc tlen ret), fun h => ?_, nofun, ?_⟩
      · rw [hstep (h.hostOf s) hr hframe rfl, harrive]
        rfl
      · rintro t ⟨⟩
        rfl
    · refine ⟨.next (s.sendCommand s.frame.index s.frame.argument s.frame.crc s.tlen s.ret), fun h => ?_, nofun, ?_⟩
      · rw [hstep (h.hostOf s) hr hframe rfl, harrive]
        rfl
      · rintro t ⟨⟩
        rfl
  · refine ⟨s.pointStep, fun h => ?_, s.pointStep_ne_refused, fun t ht => ?_⟩
    · rw [step_eq (h.hostOf s) hr hp hframe, harrive, State.pointStep_hostOf]
      rfl
    · obtain ⟨-, -, -, -, hop⟩ := State.pointStep_host s t ht
      exact hop

/-- Settles O17: the two steps have one outcome, beside what the host writes in each. -/
theorem aBusyBlockIgnoresTheHost : Obligations.ABusyBlockIgnoresTheHost := by
  intro s q sector count hr hp
  obtain ⟨o, hstep, hrefused, hop⟩ := step_busy_hostOf s hr hp
  have hself : step s = mapNext s.arrive.hostOf o := hstep s
  have hother := hstep { s with hostQueue := q, reqSector := sector, reqCount := count }
  rw [hself]
  change step { s with hostQueue := q, reqSector := sector, reqCount := count } = _ at hother
  rw [hother]
  cases o with
  | next t0 =>
    refine ⟨?_, nofun, nofun⟩
    rintro t ⟨⟩
    exact ⟨rfl, rfl, rfl, hop t0 rfl, _, rfl, rfl⟩
  | fault f =>
    refine ⟨fun t ht => ?_, fun _ hf => hf, fun r hf => ?_⟩
    · cases ht
    · cases hf
  | refused r => exact absurd rfl (hrefused r)

/-! ## Discarded bytes -/

/-- The environment, the trace and the serializer of one state, everything else of another. -/
def State.busOf (b s : State) : State := { s with card := b.card, trace := b.trace, ser := b.ser }

/-- The points at which the byte received is discarded (R109, D29). -/
def Phase.discards : List Phase :=
  [.fTx, .iPowerup, .iFinFiller, .rCrc, .rEndFiller, .rErrFiller, .wGap, .wToken, .wData, .wCrc, .wEndFiller, .wErrFiller]

/-- At those points what the block does with an exchange reads neither the byte nor the record of the exchange. -/
theorem State.receive_busOf (b s : State) (rx rx' : Byte) (hp : s.phase ∈ Phase.discards) :
    (b.busOf s).receive rx' = mapNext b.busOf (s.receive rx) := by
  simp only [Phase.discards, List.mem_cons, List.not_mem_nil, or_false] at hp
  rcases hp with hp | hp | hp | hp | hp | hp | hp | hp | hp | hp | hp | hp <;>
    simp only [State.receive, State.busOf, hp, State.afterFrameByte, State.afterPowerup, State.afterReadCrc,
      State.nextSector, State.advanceSector, State.returnError, State.finish, State.afterStartToken, State.afterWriteByte,
      State.afterWriteCrc, mapNext]
  all_goals (repeat' split) <;> rfl

/-- The state with other answers of the card. -/
def State.withCard (c : CardSource) (s : State) : State := { s with card := c }

/-- At those points an exchange with other answers differs in its record, the serializer and the answers left. -/
theorem State.exchangeAndReceive_withCard (c : CardSource) (s : State) (tx : Byte) (hp : s.phase ∈ Phase.discards) :
    (s.withCard c).exchangeAndReceive tx = mapNext ((s.withCard c).exchange tx).busOf (s.exchangeAndReceive tx) :=
  State.receive_busOf ((s.withCard c).exchange tx) (s.exchange tx) s.draw _ hp

theorem State.pointStep_withCard (c : CardSource) (s : State) (hp : s.phase ∈ Phase.discards) :
    ∃ b : State, (s.withCard c).pointStep = mapNext b.busOf s.pointStep := by
  have hexchange (tx : Byte) : ∃ b : State, (s.withCard c).exchangeAndReceive tx = mapNext b.busOf (s.exchangeAndReceive tx) :=
    ⟨_, s.exchangeAndReceive_withCard c tx hp⟩
  have hdata : ∃ b : State, (s.withCard c).sendDataByte = mapNext b.busOf s.sendDataByte := by
    unfold State.sendDataByte
    rw [show (s.withCard c).bufRead ((s.withCard c).offset + (s.withCard c).idx) = s.bufRead (s.offset + s.idx) from rfl]
    cases s.bufRead (s.offset + s.idx) with
    | some v => exact hexchange v
    | none => exact ⟨s, rfl⟩
  unfold State.pointStep
  rw [show (s.withCard c).phase = s.phase from rfl]
  simp only [Phase.discards, List.mem_cons, List.not_mem_nil, or_false] at hp
  rcases hp with hp | hp | hp | hp | hp | hp | hp | hp | hp | hp | hp | hp <;> rw [hp]
  case inr.inr.inr.inr.inr.inr.inr.inr.inl => exact hdata
  all_goals exact hexchange _

/-- The host's access does not read the environment. -/
theorem State.arrive_withCard (c : CardSource) (s : State) : (s.withCard c).arrive = s.arrive.withCard c := by
  unfold State.arrive
  rw [show (s.withCard c).hostQueue = s.hostQueue from rfl, show (s.withCard c).busy = s.busy from rfl]
  cases s.hostQueue with
  | nil => rfl
  | cons a q =>
    dsimp only
    split
    · rfl
    · cases a with
      | write reg value => cases reg <;> rfl
      | bindBuffer bytes => rfl
      | pass => rfl

/-- Settles O18: the two steps differ in what `State.busOf` holds. -/
theorem discardedBytesSteerNothing : Obligations.DiscardedBytesSteerNothing := by
  intro s c hr hp t hstep
  have hbusy : s.phase ≠ .idle ∧ s.phase ≠ .fSelect := by
    constructor <;> intro hphase <;> simp [hphase] at hp
  obtain ⟨b, hb⟩ := s.arrive.pointStep_withCard c (s.arrive_phase.symm ▸ hp)
  rw [step_eq s hr hbusy.1 hbusy.2] at hstep
  have hother : step (s.withCard c) = .next (b.busOf t) := by
    rw [step_eq (s.withCard c) hr hbusy.1 hbusy.2, State.arrive_withCard, hb, hstep]
    rfl
  exact ⟨b.busOf t, hother, rfl⟩

/-! ## The buffer -/

/-- R_DATA(j) stores the byte received at OFFSET + IDX (R62). -/
theorem State.receive_rData (rx : Byte) (s t : State) (h : s.receive rx = .next t) (hp : s.phase = .rData) :
    t.buf = s.buf.write (s.offset + s.idx) rx := by
  simp only [State.receive, hp, State.bufWrite] at h
  by_cases hb : s.offset + s.idx < s.bufLen
  · rw [if_pos hb] at h
    cases h
    unfold State.afterReadByte
    dsimp only
    split <;> rfl
  · rw [if_neg hb] at h
    cases h

theorem State.Controls.bufLen {s t : State} (hc : s.Controls t) : t.bufLen = s.bufLen := by
  cases hc <;> rfl

/-- No control action is at a point of the data. -/
theorem State.Controls.ne_rData {s t : State} (hc : s.Controls t) : s.phase ≠ .rData := by
  cases hc with
  | rest hp => rcases hp with hp | hp <;> rw [hp] <;> decide
  | initEntry hp | finDeselect hp | reselect hp | initReady hp => rw [hp]; decide
  | call p hp => rw [hp]; cases p <;> decide
  | firstCall e hp | noSectors e hp | endDeselect e hp | errDeselect e hp => rw [hp]; cases e <;> decide

/-- What the step of a busy block does to the buffer: its size stays, and so do its bytes, but the one R_DATA(j) stores. -/
theorem step_busy_buffer (s t : State) (hr : s.resetIn = false) (hp : s.phase ≠ .idle) (hstep : step s = .next t) :
    t.bufLen = s.bufLen ∧ (s.phase = .rData → t.buf = s.buf.write (s.offset + s.idx) s.draw) ∧
      (s.phase ≠ .rData → t.buf = s.buf) := by
  obtain ⟨hbuf, hlen⟩ := s.arrive_buffer hp
  cases State.steps hr hstep with
  | idle hidle => exact absurd hidle hp
  | framer _ _ hframe => exact ⟨hlen, fun hdata => absurd (hframe.symm.trans hdata) (by decide), fun _ => hbuf⟩
  | control _ hcontrol =>
    obtain ⟨hkept, -⟩ := hcontrol.frame
    refine ⟨hcontrol.bufLen.trans hlen, fun hdata => ?_, fun _ => hkept.trans hbuf⟩
    exact absurd (s.arrive_phase.trans hdata) hcontrol.ne_rData
  | exchange tx _ _ hx =>
    have hframe := State.receive_frame _ _ _ hx
    refine ⟨hframe.bufLen.trans hlen, fun hdata => ?_, fun hdata => (hframe.buf ?_).trans hbuf⟩
    · simpa [State.exchange, hbuf] using State.receive_rData _ _ _ hx (s.arrive_phase.trans hdata)
    · exact fun h => hdata (s.arrive_phase.symm.trans h)

/-- Settles O19: a read after a store, and the canonical form of a store. -/
theorem onlyReadDataStoresToTheBuffer : Obligations.OnlyReadDataStoresToTheBuffer := by
  intro s t hr hwf hp hstep
  obtain ⟨hlen, hdata, hkept⟩ := step_busy_buffer s t hr hp hstep
  refine ⟨hlen, ?_, fun h => ?_, fun h a => by rw [hkept h]⟩
  · by_cases h : s.phase = .rData
    · exact hdata h ▸ s.buf.write_WF _ _ hwf
    · exact hkept h ▸ hwf
  · rw [hdata h]
    exact ⟨s.buf.read_write_same _ _ hwf, fun a ha => s.buf.read_write_other _ a _ hwf ha⟩

/-! ## The sector counters -/

/-- A control action leaves the sector counters. -/
theorem State.Controls.sectors {s t : State} (hc : s.Controls t) :
    t.sector = s.sector ∧ t.offset = s.offset ∧ t.remain = s.remain := by
  cases hc <;> exact ⟨rfl, rfl, rfl⟩

/-- A byte received leaves the sector counters but at the closing filler of a completed sector (R221). -/
theorem State.Receives.sectors {rx : Byte} {s t : State} (hc : s.Receives rx t) :
    (t.sector = s.sector ∧ t.offset = s.offset ∧ t.remain = s.remain) ∨
      ∃ e : Engine, s.phase = e.endFiller ∧ t.sector = s.sector + 1 ∧ t.offset = s.offset + Config.blockLen ∧
        t.remain = s.remain - 1 := by
  cases hc with
  | nextSector e hp | lastSector e hp => exact .inr ⟨e, hp, rfl, rfl, rfl⟩
  | pollResume | trailResume =>
    rw [State.resume_frame]
    exact .inl ⟨rfl, rfl, rfl⟩
  | _ => exact .inl ⟨rfl, rfl, rfl⟩

/-- One sector done: SECTOR and OFFSET advance together, and what is left is one less. -/
theorem sector_follows_offset (sector remain : Word32) (offset : Nat) (hr : remain ≠ 0) :
    (sector + 1) - BitVec.ofNat 32 ((offset + 512) / 512) = sector - BitVec.ofNat 32 (offset / 512) ∧
      offset + 512 + (remain - 1).toNat * 512 = offset + remain.toNat * 512 := by
  have hcount := toNat_sub_one remain hr
  refine ⟨?_, by omega⟩
  rw [Nat.add_div_right offset (by decide), BitVec.ofNat_add, show BitVec.ofNat 32 1 = 1 from rfl]
  ring

/-- Settles O60: the counters move together, at the closing filler of a completed sector alone. -/
theorem sectorFollowsOffset : Obligations.SectorFollowsOffset := by
  intro s t h hr hp _ hstep
  have hkept (hs : t.sector = s.sector) (ho : t.offset = s.offset) (hm : t.remain = s.remain) :
      t.sector - BitVec.ofNat 32 (t.offset / 512) = s.sector - BitVec.ofNat 32 (s.offset / 512) ∧
        t.offset + t.remain.toNat * 512 = s.offset + s.remain.toNat * 512 := by
    rw [hs, ho, hm]
    exact ⟨rfl, rfl⟩
  cases State.steps hr hstep with
  | idle hidle => exact absurd hidle hp
  | framer => exact hkept s.arrive_sector s.arrive_offset s.arrive_remain
  | control _ hcontrol =>
    obtain ⟨hs, ho, hm⟩ := hcontrol.sectors
    exact hkept (hs.trans s.arrive_sector) (ho.trans s.arrive_offset) (hm.trans s.arrive_remain)
  | exchange tx _ _ hx =>
    rcases (State.exchange_receives hx).sectors with ⟨hs, ho, hm⟩ | ⟨e, he, hs, ho, hm⟩
    · exact hkept (hs.trans s.arrive_sector) (ho.trans s.arrive_offset) (hm.trans s.arrive_remain)
    · have hpoint := (State.pointOk_endFiller e (s.arrive_phase.symm.trans he)).1 h.point
      obtain ⟨-, hremain, -⟩ := (State.sectorOk_iff ..).1 hpoint.2
      simp only [State.exchange, State.exchangeWith_sector, State.exchangeWith_offset, State.exchangeWith_remain,
        State.arrive_sector, State.arrive_offset, State.arrive_remain] at hs ho hm
      rw [hs, ho, hm]
      exact sector_follows_offset s.sector s.remain s.offset hremain

end Sys2Proof.Machine
end

section
/-! PROOFS. The tokens (30_encoding.md sections 1 and 3): each completes as one exchange and writes the registers of its
rule. -/

namespace Sys2Proof.Machine

/-! ## The tokens sent -/

/-- FILLER completes with its record, and leaves what no byte received writes (R100). -/
theorem exec_filler_completes (s : State) (hb : s.phase = .rData → s.offset + s.idx < s.bufLen) :
    ∃ t : State, exec .filler s = .next t ∧ (s.exchange Config.filler).ReceiveFrame t ∧
      (s.phase = .rData → t.buf = s.buf.write (s.offset + s.idx) s.draw) := by
  obtain ⟨t, ht⟩ := State.receive_completes s.draw (s.exchange Config.filler) hb
  exact ⟨t, ht, State.receive_frame _ _ _ ht, State.receive_rData s.draw (s.exchange Config.filler) t ht⟩

/-- Settles O54: an exchange each, the answer to the two tokens of a write discarded. -/
theorem sentTokensComplete : Obligations.SentTokensComplete := by
  intro s
  refine ⟨fun hb => ?_, ⟨_, rfl, rfl, rfl, rfl, rfl, rfl⟩, ?_⟩
  · obtain ⟨t, ht, h, hdata⟩ := exec_filler_completes s hb
    refine ⟨t, ht, h.trace, h.card, h.sel, h.clk, h.initialized, h.ret, h.frame, h.tlen, h.reqOp, h.reqSector, h.reqCount,
      h.bufLen, h.hostQueue, h.resetIn, h.par, fun hp a => by rw [h.buf hp]; rfl, fun hp hwf => ?_⟩
    rw [hdata hp]
    exact ⟨s.buf.read_write_same _ _ hwf, fun a ha => s.buf.read_write_other _ a _ hwf ha⟩
  · refine ⟨_, rfl, ?_⟩
    unfold State.afterWriteCrc
    dsimp only
    split
    · exact ⟨rfl, (if_pos ‹_›).symm, rfl, rfl, rfl⟩
    · exact ⟨rfl, (if_neg ‹_›).symm, rfl, rfl, rfl⟩

/-! ## What a byte received writes -/

section
variable {rx : Byte} {s t : State}

theorem Engine.endFiller_mem (e : Engine) : e.endFiller ∈ [Phase.rEndFiller, .wEndFiller] := by cases e <;> decide

/-- R1 holds the byte received in the poll (R153). -/
theorem State.receive_fPoll_r1 (h : s.receive rx = .next t) (hp : s.phase = .fPoll) : t.r1 = rx := by
  simp only [State.receive, hp] at h
  cases h
  unfold State.pollR1 State.endPoll
  dsimp only
  split
  · split
    · rfl
    · rw [State.resume_frame]
  · rfl

theorem State.Receives.r1_kept (hc : s.Receives rx t) (hp : s.phase ≠ .fPoll) : t.r1 = s.r1 := by
  cases hc with
  | pollAgain h | pollTrail h | pollResume h => exact absurd h hp
  | trailResume => rw [State.resume_frame]
  | _ => rfl

/-- RESP holds the data response (R244). -/
theorem State.receive_wResp_resp (h : s.receive rx = .next t) (hp : s.phase = .wResp) : t.resp = rx := by
  simp only [State.receive, hp] at h
  cases h
  unfold State.judgeResponse
  dsimp only
  split
  · exact State.enterBusy_resp _
  · rfl

theorem State.Receives.resp_kept (hc : s.Receives rx t) (hp : s.phase ≠ .wResp) : t.resp = s.resp := by
  cases hc with
  | accepted h | acceptedBounded _ h | responseRejected h => exact absurd h hp
  | pollResume | trailResume => rw [State.resume_frame]
  | _ => rfl

/-- TRAIL holds the trailing byte in its place (R154). -/
theorem State.receive_fTrail_trail (h : s.receive rx = .next t) (hp : s.phase = .fTrail) :
    t.trail = s.trail.set s.idx rx := by
  simp only [State.receive, hp, State.storeTrail_frame] at h
  cases h
  split
  · rfl
  · rw [State.resume_frame]

theorem State.Receives.trail_kept (hc : s.Receives rx t) (hp : s.phase ≠ .fTrail) : t.trail = s.trail := by
  cases hc with
  | trailByte h | trailResume h => exact absurd h hp
  | pollResume => rw [State.resume_frame]
  | _ => rfl

theorem State.Receives.result_kept (hc : s.Receives rx t)
    (hp : s.phase ∉ [Phase.fPoll, .fTrail, .rEndFiller, .wEndFiller, .rErrFiller, .wErrFiller]) :
    t.result = s.result ∧ t.results = s.results := by
  cases hc with
  | pollResume h | trailResume h => exact absurd (by simp [h]) hp
  | lastSector e h => exact absurd (h ▸ by cases e <;> decide) hp
  | errFiller e h => exact absurd (h ▸ by cases e <;> decide) hp
  | _ => exact ⟨rfl, rfl⟩

theorem State.Receives.init_kept (hc : s.Receives rx t) (hp : s.phase ∉ [Phase.fPoll, .fTrail]) :
    t.capacityClass = s.capacityClass ∧ t.v2 = s.v2 ∧ t.retry = s.retry := by
  cases hc with
  | pollResume h | trailResume h => exact absurd (by simp [h]) hp
  | _ => exact ⟨rfl, rfl, rfl⟩

theorem State.Receives.err_kept (hc : s.Receives rx t) (hp : s.phase ∉ [Phase.fPoll, .fTrail, .rToken, .wResp, .wBusy]) :
    t.err = s.err := by
  cases hc with
  | pollResume h | trailResume h | tokenTimeout h | responseRejected h | busyTimeout _ h => exact absurd (by simp [h]) hp
  | _ => rfl

theorem State.Receives.poll_kept (hc : s.Receives rx t)
    (hp : s.phase ∉ [Phase.fTx, .fPoll, .fTrail, .rToken, .wResp, .wBusy]) : t.poll = s.poll := by
  cases hc with
  | lastFrameByte h | pollAgain h | pollTrail h | pollResume h | trailResume h | startToken h | tokenTimeout h | tokenMiss h
  | acceptedBounded _ h | busyCounted _ h | busyTimeout _ h | busyEndsCounted _ h => exact absurd (by simp [h]) hp
  | _ => rfl

theorem State.Receives.idx_kept (hc : s.Receives rx t)
    (hp : s.phase ∉ [Phase.fTx, .fPoll, .fTrail, .iPowerup, .rToken, .rData, .rCrc, .wToken, .wData, .wCrc]) :
    t.idx = s.idx := by
  cases hc with
  | frameByte h | lastFrameByte h | pollTrail h | pollResume h | trailByte h | trailResume h | powerup h | lastPowerup h
  | startToken h | readByte h | lastReadByte h | readCrc h | lastReadCrc h | tokenSent h | writeByte h | lastWriteByte h
  | writeCrc h | lastWriteCrc h => exact absurd (by simp [h]) hp
  | _ => rfl

end

/-- There is no TRAIL[4]: a place beyond the file keeps it (R28). -/
theorem Trail.get_set_eq (t : Trail) (j k : Nat) (v : Byte) (hk : k < 4) :
    (t.set j v).get k = if k = j then v else t.get k := by
  by_cases hj : j < 4
  · exact t.get_set j k v hj hk
  · obtain ⟨n, rfl⟩ := Nat.exists_eq_add_of_le' (not_lt.1 hj)
    have hset : t.set (n + 4) v = t := rfl
    rw [hset, if_neg (by omega)]

/-- Settles O55: each register is written at its points and kept elsewhere. -/
theorem fillerWritesOnlyTheRegistersOfItsPoint : Obligations.FillerWritesOnlyTheRegistersOfItsPoint := by
  intro s t h
  have hc := State.receives h
  refine ⟨?_, ?_, fun k hk => ?_, fun hp => ?_, hc.result_kept, (State.receive_frame _ _ _ h).initialized, hc.init_kept,
    hc.err_kept, hc.poll_kept, hc.idx_kept⟩
  · split
    · exact State.receive_fPoll_r1 h ‹_›
    · exact hc.r1_kept ‹_›
  · split
    · exact State.receive_wResp_resp h ‹_›
    · exact hc.resp_kept ‹_›
  · by_cases hp : s.phase = .fTrail
    · rw [State.receive_fTrail_trail h hp]
      simpa [hp, State.exchange] using s.trail.get_set_eq s.idx k s.draw hk
    · rw [hc.trail_kept hp, if_neg fun hand => hp hand.1]
      rfl
  · obtain ⟨hs, ho, hm⟩ := hc.sectors.resolve_right fun ⟨e, he, _⟩ => hp (he ▸ e.endFiller_mem)
    exact ⟨ho, hs, hm⟩

/-! ## The tokens received -/

/-- A byte that ends the poll: R1 is the byte, and the trailing bytes are due or the caller goes on (R153). -/
theorem pollR1_completes (s : State) (b : Byte) (hend : endsR1Poll b = true) :
    ∃ u : State, (s.exchangeWith Config.filler b).pollR1 b =
        (if 0 < s.tlen.val then { u with phase := .fTrail } else u.resume) ∧ u.r1 = b ∧ u.poll = s.poll + 1 ∧
      u.idx = 0 ∧ u.trace = s.trace ++ [{ tx := 0xFF, rx := b, sel := s.sel, clk := s.clk }] ∧
      u = { s with r1 := u.r1, poll := u.poll, idx := u.idx, trace := u.trace, card := s.card.advance, ser := u.ser } :=
  ⟨{ s.exchangeWith Config.filler b with poll := s.poll + 1, r1 := b, idx := 0 }, if_pos (.inl hend), rfl, rfl, rfl, rfl,
    rfl⟩

/-- Settles O56: each of the three bytes ends the poll. -/
theorem r1TokensComplete : Obligations.R1TokensComplete := by
  intro s i b hi
  have hend : endsR1Poll b = true ∧ exec i s = .next ((s.exchangeWith Config.filler b).pollR1 b) := by
    rcases hi with ⟨rfl, hwf⟩ | ⟨rfl, rfl⟩ | ⟨rfl, rfl⟩
    · refine ⟨?_, rfl⟩
      have hmask : b &&& 0x80 = 0x00 := beq_iff_eq.1 hwf
      have hbit := congrArg (·.getLsbD 7) hmask
      simpa [endsR1Poll, BitVec.msb_eq_getLsbD_last] using hbit
    · exact ⟨rfl, rfl⟩
    · exact ⟨rfl, rfl⟩
  obtain ⟨u, hnext, hr1, hpoll, hidx, htrace, hframe⟩ := pollR1_completes s b hend.1
  exact ⟨u, hend.2.trans (congrArg _ hnext), hr1, hpoll, hidx, htrace, hframe, u.resume_frame⟩

/-- A trailing byte: stored in its place, and the next one is due or the caller goes on (R154). -/
theorem storeTrail_completes (s : State) (j : Nat) (b : Byte) (hj : j < 4) :
    ∃ u : State, (s.exchangeWith Config.filler b).storeTrail j b =
        (if j + 1 < s.tlen.val then { u with phase := .fTrail } else u.resume) ∧ u.trail.get j = b ∧
      (∀ k, k < 4 → k ≠ j → u.trail.get k = s.trail.get k) ∧ u.idx = j + 1 ∧
      u.trace = s.trace ++ [{ tx := 0xFF, rx := b, sel := s.sel, clk := s.clk }] ∧
      u = { s with trail := u.trail, idx := u.idx, trace := u.trace, card := s.card.advance, ser := u.ser } := by
  refine ⟨{ s.exchangeWith Config.filler b with trail := s.trail.set j b, idx := j + 1 }, rfl, ?_, fun k hk hne => ?_, rfl,
    rfl, rfl⟩
  · exact (s.trail.get_set j j b hj hj).trans (if_pos rfl)
  · exact (s.trail.get_set j k b hj hk).trans (if_neg hne)

/-- Settles O58: each of the three bytes is stored in its place. -/
theorem trailTokensComplete : Obligations.TrailTokensComplete := by
  intro s i j b hi
  have hstore : j < 4 ∧ exec i s = .next ((s.exchangeWith Config.filler b).storeTrail j b) := by
    rcases hi with ⟨rfl, rfl, rfl⟩ | ⟨rfl, rfl, rfl⟩ | ⟨rfl, rfl, -⟩ <;> exact ⟨by decide, rfl⟩
  obtain ⟨u, hnext, hplace, hothers, hidx, htrace, hframe⟩ := storeTrail_completes s j b hstore.1
  exact ⟨u, hstore.2.trans (congrArg _ hnext), hplace, hothers, hidx, htrace, hframe, u.resume_frame⟩

/-- An accepted response enters the busy-wait (R244, R245). -/
theorem exec_dataAccepted_completes (s : State) (b : Byte) (hwf : (Instr.dataAccepted b).wf = true) :
    ∃ t : State, exec (.dataAccepted b) s = .next t ∧ t.phase = .wBusy ∧ t.resp = b ∧
      t.poll = (if s.par.writeBusyBound = none then s.poll else 0) ∧
      t.trace = s.trace ++ [{ tx := 0xFF, rx := b, sel := s.sel, clk := s.clk }] ∧
      t = { s with
          phase := t.phase, resp := t.resp, poll := t.poll, trace := t.trace, card := s.card.advance, ser := t.ser } := by
  have hnext : exec (.dataAccepted b) s =
      .next ({ s.exchangeWith Config.filler b with resp := b } : State).enterBusy := congrArg _ (if_pos hwf)
  refine ⟨_, hnext, ?_⟩
  simp only [State.enterBusy, State.exchangeWith_par]
  cases s.par.writeBusyBound <;> exact ⟨rfl, rfl, rfl, rfl, rfl⟩

/-- A busy byte below its bound keeps the busy-wait going (R245, R248). -/
theorem exec_busyByte_completes (s : State) (hbound : s.par.writeBusyBound ≠ some (s.poll + 1)) :
    ∃ t : State, exec .busyByte s = .next t ∧ t.phase = s.phase ∧
      t.poll = (if s.par.writeBusyBound = none then s.poll else s.poll + 1) ∧
      t.trace = s.trace ++ [{ tx := 0xFF, rx := 0x00, sel := s.sel, clk := s.clk }] ∧
      t = { s with poll := t.poll, trace := t.trace, card := s.card.advance, ser := t.ser } := by
  refine ⟨_, rfl, ?_⟩
  simp only [State.busyWait, State.exchangeWith_par]
  cases hn : s.par.writeBusyBound with
  | none => exact ⟨rfl, rfl, rfl, rfl⟩
  | some bound =>
    have hmore : s.poll + 1 ≠ bound := fun heq => hbound (hn.trans (congrArg some heq.symm))
    have hbusy : reportsBusy Config.busyByte = true := rfl
    dsimp only
    rw [if_pos hbusy, if_neg (by exact hmore)]
    exact ⟨rfl, rfl, rfl, rfl⟩

/-- Settles O57: the three tokens of the data transfer. -/
theorem dataTokensComplete : Obligations.DataTokensComplete := fun s =>
  ⟨⟨_, rfl, rfl, rfl, rfl, rfl, rfl⟩, exec_dataAccepted_completes s, exec_busyByte_completes s⟩

end Sys2Proof.Machine
end

section
/-! PROOFS. Reset, the host's requests and registers (10_state.md sections 4 and 5, 60_exceptions.md section 1,
70_reset_and_hazards.md section 1). -/

namespace Sys2Proof.Machine

/-! ## Reset and the reset input -/

/-- An idle block with no access pending makes no step of its own (R310). -/
theorem step_idle_nil (s : State) (hr : s.resetIn = false) (hp : s.phase = .idle) (hq : s.hostQueue = []) :
    step s = .next s := by
  rw [step_idle_access s hr hp (by simp [hq]), s.arrive_nil hq]

/-- Settles O1: the reset values, and the idle step with no request. -/
theorem resetLeavesTheBlockIdle : Obligations.ResetLeavesTheBlockIdle :=
  ⟨rfl, rfl, rfl, rfl, rfl, rfl, rfl, rfl, rfl, step_idle_nil State.reset rfl rfl rfl⟩

/-- While the reset input is asserted the step is the reset (R311). -/
theorem step_reset (s : State) (h : s.resetIn = true) : step s = .next s.applyReset := by
  rw [step, if_pos h]

/-- Settles O2: the step is the reset, which keeps what is outside the block. -/
theorem resetInputAbandonsTheOperation : Obligations.ResetInputAbandonsTheOperation := fun s h =>
  have hstat : s.applyReset.stat = State.reset.stat := rfl
  ⟨s.applyReset, step_reset s h, rfl, rfl, rfl, rfl, rfl, rfl, hstat.trans rfl, rfl, rfl, rfl, rfl, rfl, rfl, fun _ => rfl⟩

/-! ## Requests -/

theorem State.busy_eq_false (s : State) (hp : s.phase = .idle) : s.busy = false := by
  rw [State.busy, hp]
  rfl

theorem State.busy_eq_true (s : State) (hp : s.phase ≠ .idle) : s.busy = true := bne_iff_ne.2 hp

/-- An idle block with a buffer large enough accepts a transfer (R36, R38). -/
theorem exec_transfer_accepted (s : State) (sector count : Word32) (hp : s.phase = .idle)
    (hlen : count.toNat * 512 ≤ s.bufLen) :
    exec (.readBlocks sector count) s = .next (s.start 2 sector count .rHead).loadOperands ∧
      exec (.writeBlocks sector count) s = .next (s.start 3 sector count .wHead).loadOperands := by
  have hidle : ¬ s.busy = true := by simp [s.busy_eq_false hp]
  exact ⟨(if_neg hidle).trans (if_neg hlen.not_gt), (if_neg hidle).trans (if_neg hlen.not_gt)⟩

/-- Settles O33: an idle block accepts INIT, and a transfer whose buffer is large enough. -/
theorem hostRequestsStartOperations : Obligations.HostRequestsStartOperations := fun s sector count hp =>
  ⟨if_neg (by simp [s.busy_eq_false hp]), exec_transfer_accepted s sector count hp⟩

/-- Settles O34: the two tests of a request, the busy one first. -/
theorem requestsWithoutMeaningAreRefused : Obligations.RequestsWithoutMeaningAreRefused := by
  intro s sector count
  refine ⟨fun hp => ?_, fun hp hlen => ?_⟩
  · have hbusy := s.busy_eq_true hp
    exact ⟨if_pos hbusy, if_pos hbusy, if_pos hbusy⟩
  · have hidle : ¬ s.busy = true := by simp [s.busy_eq_false hp]
    exact ⟨(if_neg hidle).trans (if_pos hlen), (if_neg hidle).trans (if_pos hlen)⟩

/-! ## The host's registers while idle -/

/-- An idle block takes an access that is no write of REQ_OP, and that is all of the step. -/
theorem step_idle_takes (s : State) (a : HostAccess) (q : List HostAccess) (hr : s.resetIn = false) (hp : s.phase = .idle)
    (hq : s.hostQueue = a :: q) (ha : ∀ v, a ≠ .write .reqOp v) : step s = .next ({ s with hostQueue := q }.access a) := by
  rw [step_idle_access s hr hp fun v q' hvq => ha v (List.cons.inj (hq.symm.trans hvq)).1,
    s.arrive_cons a q hq (.inl hp)]

/-- Settles O35: a write of REQ_OP runs the operation of its low two bits, any other write is taken alone. -/
theorem hostWritesWhileIdle : Obligations.HostWritesWhileIdle := by
  intro s v q hr hp
  refine ⟨fun hq => ?_, fun hq => step_idle_takes s _ q hr hp hq nofun, fun hq => step_idle_takes s _ q hr hp hq nofun,
    fun hq => step_idle_takes s _ q hr hp hq nofun, fun hq => step_idle_takes s _ q hr hp hq nofun⟩
  rw [step_idle_request s v q hr hp hq]
  refine ⟨fun h => ?_, fun h => ?_, fun h => ?_, fun h => ?_⟩ <;> rw [h] <;> rfl

/-- Settles O36: the binding is the step, and the bytes bound read back. -/
theorem boundBufferHoldsTheHostsBytes : Obligations.BoundBufferHoldsTheHostsBytes := by
  intro s bytes q hr hp hq
  refine ⟨_, step_idle_takes s _ q hr hp hq nofun, rfl, Memory.ofBytes_WF 0 bytes, fun j b hj => ?_⟩
  obtain ⟨hlt, rfl⟩ := List.getElem?_eq_some_iff.1 hj
  have hread := Memory.read_ofBytes 0 j bytes hlt
  rwa [Nat.zero_add] at hread

/-! ## STAT and the result codes -/

/-- A byte put together from its fields gives each of them back (R39). -/
theorem statFields (fast sel sdhc init busy : Bool) (code : BitVec 3) :
    let stat : Byte := BitVec.ofBool fast ++ BitVec.ofBool sel ++ BitVec.ofBool sdhc ++ BitVec.ofBool init ++ code ++
      BitVec.ofBool busy
    stat.getLsbD 0 = busy ∧ stat.extractLsb' 1 3 = code ∧ stat.getLsbD 4 = init ∧ stat.getLsbD 5 = sdhc ∧
      stat.getLsbD 6 = sel ∧ stat.getLsbD 7 = fast := by
  revert fast sel sdhc init busy code
  decide

/-- Settles O37: STAT is put together from live fields. -/
theorem statFieldsAreLive : Obligations.StatFieldsAreLive := fun s =>
  have ⟨hbusy, hcode, hinit, hsdhc, hsel, hfast⟩ := statFields (s.clk == .fast) s.sel (s.capacityClass == .sdhc)
    s.initialized s.busy s.result.code
  ⟨hbusy, hcode, hinit, hsdhc, hsel, hfast, rfl⟩

/-- Settles O38: the six codes. -/
theorem resultCodesAreThoseOfTheTable : Obligations.ResultCodesAreThoseOfTheTable := by
  refine ⟨rfl, rfl, rfl, rfl, rfl, rfl, fun r => ?_⟩
  cases r <;> decide

/-! ## A transfer of no sectors -/

/-- At the head of a transfer of no sectors the step returns OK, with no bus action (R223). -/
theorem step_noSectors (e : Engine) (s : State) (hr : s.resetIn = false) (hp : s.phase = e.head) (h0 : s.remain = 0) :
    ∃ t : State, step s = .next t ∧ t.phase = .idle ∧ t.result = .ok ∧
      t.observe = { s.observe with results := s.results ++ [.ok] } ∧ t.card = s.card := by
  have hbuf : s.arrive.buf = s.buf := (s.arrive_buffer (by rw [hp]; cases e <;> decide)).1
  have hstep : step s = .next (s.arrive.finish .ok) := by
    cases e with
    | read => rw [step_at_rHead s hr hp, if_pos h0]
    | write => rw [step_at_wHead s hr hp, if_pos h0]
  refine ⟨_, hstep, rfl, rfl, ?_, s.arrive_card⟩
  simp [State.observe, State.finish, hbuf]

/-- Settles O39: a count of 0 fits any buffer, and the head of the transfer returns OK. -/
theorem transferOfNoSectorsIsOk : Obligations.TransferOfNoSectorsIsOk := by
  intro s sector hr hp
  obtain ⟨hread, hwrite⟩ := exec_transfer_accepted s sector 0 hp (Nat.zero_le _)
  obtain ⟨t, ht⟩ := step_noSectors .read (s.start 2 sector 0 .rHead).loadOperands hr rfl rfl
  obtain ⟨t', ht'⟩ := step_noSectors .write (s.start 3 sector 0 .wHead).loadOperands hr rfl rfl
  exact ⟨⟨_, t, hread, ht⟩, ⟨_, t', hwrite, ht'⟩⟩

end Sys2Proof.Machine
end

section
/-! PROOFS. Sequences of exchanges: the answers they take, the records they leave, and a run whose last step ends an
operation. -/

namespace Sys2Proof.Machine

/-! ## The answers of the card -/

/-- The next answers of the environment (R12, R138). -/
def CardSource.draws : Nat → CardSource → List Byte
  | 0, _ => []
  | n + 1, c => c.next :: c.advance.draws n

@[simp] theorem CardSource.length_draws (n : Nat) (c : CardSource) : (c.draws n).length = n := by
  induction n generalizing c with
  | zero => rfl
  | succ n ih => rw [CardSource.draws, List.length_cons, ih]

/-- The answers fixed by a script come first. -/
theorem CardSource.draws_of_script (received rest : List Byte) (c : CardSource) (h : c.script = received ++ rest) :
    c.draws received.length = received := by
  induction received generalizing c with
  | nil => rfl
  | cons b received ih =>
    have hnext : c.next = b := by simp [CardSource.next, h]
    rw [List.length_cons, CardSource.draws, hnext, ih c.advance (by simp [CardSource.advance, h])]

/-- With no script left a byte fixed for ever is every answer. -/
theorem CardSource.draws_forever (n : Nat) (b : Byte) (c : CardSource) (hscript : c.script = [])
    (hforever : c.forever = some b) : c.draws n = List.replicate n b := by
  induction n generalizing c with
  | zero => rfl
  | succ n ih =>
    have hnext : c.next = b := by simp [CardSource.next, hscript, hforever]
    rw [CardSource.draws, hnext, ih c.advance (by simp [CardSource.advance, hscript]) hforever, List.replicate_succ]

/-! ## What a sequence of exchanges leaves -/

/-- The records of a sequence of exchanges: each byte sent beside the answer it received (R130). -/
theorem State.exchangeAll_trace (txs : List Byte) (s : State) :
    (s.exchangeAll txs).trace = s.trace ++
      List.zipWith (fun tx rx => { tx := tx, rx := rx, sel := s.sel, clk := s.clk }) txs (s.card.draws txs.length) := by
  induction txs generalizing s with
  | nil => simp [State.exchangeAll]
  | cons tx txs ih =>
    rw [State.exchangeAll_cons, ih]
    simp [State.exchange, CardSource.draws, State.draw]

/-- The records of exchanges that send one byte each time. -/
theorem State.exchangeAll_replicate_trace (tx : Byte) (n : Nat) (s : State) :
    (s.exchangeAll (List.replicate n tx)).trace = s.trace ++ xfers tx s.sel s.clk (s.card.draws n) := by
  have hzip (received : List Byte) (f : Byte → Byte → Xfer) :
      List.zipWith f (List.replicate received.length tx) received = received.map (f tx) := by
    induction received with
    | nil => rfl
    | cons b received ih => rw [List.length_cons, List.replicate_succ, List.zipWith_cons_cons, ih, List.map_cons]
  have hdraws := hzip (s.card.draws n) fun tx rx => { tx := tx, rx := rx, sel := s.sel, clk := s.clk }
  rw [CardSource.length_draws] at hdraws
  rw [State.exchangeAll_trace, List.length_replicate, hdraws]
  rfl

/-- The answers left after a sequence of exchanges. -/
theorem State.exchangeAll_card (txs : List Byte) (s : State) :
    (s.exchangeAll txs).card = s.card.after txs.length (s.card.script.drop txs.length) := by
  induction txs generalizing s with
  | nil => rfl
  | cons tx txs ih =>
    rw [State.exchangeAll_cons, ih]
    simp only [State.exchange, State.exchangeWith_card, CardSource.after, CardSource.advance, List.length_cons,
      List.drop_tail, CardSource.mk.injEq, true_and]
    omega

/-- A script whose front the exchanges take leaves its rest. -/
theorem State.exchangeAll_card_of_script (txs received rest : List Byte) (s : State)
    (h : s.card.script = received ++ rest) (hlen : received.length = txs.length) :
    (s.exchangeAll txs).card = s.card.after txs.length rest := by
  rw [State.exchangeAll_card, h, ← hlen, List.drop_left]

/-- Once the front of a script is taken, the next byte of it is the draw. -/
theorem State.exchangeAll_draw (txs received rest : List Byte) (b : Byte) (s : State)
    (h : s.card.script = received ++ b :: rest) (hlen : received.length = txs.length) : (s.exchangeAll txs).draw = b := by
  rw [State.draw, s.exchangeAll_card_of_script txs received (b :: rest) h hlen]
  rfl

/-! ## Runs that may end an operation -/

/-- A run of some steps to a state, the last of them from a busy state. -/
def State.RunsTo (n : Nat) (s t : State) : Prop :=
  ∃ (k : Nat) (u : State), n = k + 1 ∧ run k s = .next u ∧ u.phase ≠ .idle ∧ step u = .next t

theorem State.RunsTo.of_step {s t : State} (hp : s.phase ≠ .idle) (h : step s = .next t) : s.RunsTo 1 t :=
  ⟨0, s, rfl, rfl, hp, h⟩

theorem State.RunsTo.after_step {n : Nat} {s u t : State} (hstep : step s = .next u) (h : u.RunsTo n t) :
    s.RunsTo (n + 1) t := by
  obtain ⟨k, v, rfl, hv, hp, hlast⟩ := h
  exact ⟨k + 1, v, rfl, (run_succ k hstep).trans hv, hp, hlast⟩

theorem State.RunsTo.after {m n : Nat} {s u t : State} (hrun : run m s = .next u) (h : u.RunsTo n t) :
    s.RunsTo (m + n) t := by
  obtain ⟨k, v, rfl, hv, hp, hstep⟩ := h
  exact ⟨m + k, v, rfl, (run_add m k hrun).trans hv, hp, hstep⟩

/-- With no access pending such a run is the run beside any accesses of the host. -/
theorem State.RunsTo.beside_host {n : Nat} {s t : State} (hr : s.resetIn = false) (h : s.quiet.RunsTo n t) :
    run n s = .next ((s.arrivals n).hostOf t) := by
  obtain ⟨k, u, rfl, hrun, hp, hstep⟩ := h
  exact run_hostOf_last k s s.quiet u t s.hostOf_quiet rfl hr hrun hp hstep

end Sys2Proof.Machine
end

section
/-! PROOFS. The command framer (41_command_framer.md): the entry, the six frame bytes, the poll of R1, the trailing bytes. -/

namespace Sys2Proof.Machine

/-- Settles O22: each frame instruction is the call of SendCommand with its operands. -/
theorem commandFramesEnterSendCommand : Obligations.CommandFramesEnterSendCommand := fun _ _ _ =>
  ⟨rfl, rfl, rfl, rfl, rfl, rfl, rfl, rfl⟩

/-- An exchange of the poll that does not end it (R153). -/
theorem State.pollR1_goesOn (rx : Byte) (s : State) (hrx : rx.msb = true) (hn : s.poll + 1 ≠ Config.nCmdPoll) :
    s.pollR1 rx = { s with poll := s.poll + 1, r1 := rx } := by
  refine if_neg (not_or.2 ⟨?_, hn⟩)
  simp [endsR1Poll, hrx]

/-- Settles O24: the poll goes on, the byte in R1. -/
theorem unansweredPollGoesOn : Obligations.UnansweredPollGoesOn := by
  intro s hr hp hmsb hn
  have hstep := step_at_fPoll s hr hp
  rw [State.pollR1_goesOn _ _ hmsb (by rwa [State.exchangeWith_poll, s.arrive_poll])] at hstep
  exact ⟨_, hstep, s.arrive_phase.trans hp, rfl, congrArg (· + 1) s.arrive_poll, rfl⟩

/-! ## The six frame bytes (R150, R152) -/

/-- A state of the poll: PHASE, POLL and the byte held in R1. -/
def State.atPoll (n : Nat) (r1 : Byte) (s : State) : State := { s with phase := .fPoll, poll := n, r1 := r1 }

theorem State.IsQuiet.atPoll {s : State} (h : s.IsQuiet) (n : Nat) (r1 : Byte) : (s.atPoll n r1).IsQuiet :=
  ⟨h.resetIn, h.hostQueue⟩

theorem State.exchange_frame (tx : Byte) (s : State) : (s.exchange tx).frame = s.frame := rfl
theorem State.exchange_r1 (tx : Byte) (s : State) : (s.exchange tx).r1 = s.r1 := rfl
theorem State.exchange_tlen (tx : Byte) (s : State) : (s.exchange tx).tlen = s.tlen := rfl

/-- The exchange of a frame byte. -/
theorem step_fTx (s : State) (i : Nat) (h : s.IsQuiet) :
    step (s.atPoint .fTx i) = .next ((s.exchange (s.frame.byte i)).atPoint .fTx i).afterFrameByte := by
  rw [step_at_fTx (s.atPoint .fTx i) (h.atPoint ..).resetIn rfl, (h.atPoint ..).arrive]
  rfl

theorem State.afterFrameByte_more (s : State) (i : Nat) (hi : i + 1 < Config.frameLen) :
    (s.atPoint .fTx i).afterFrameByte = s.atPoint .fTx (i + 1) := if_pos hi

theorem State.afterFrameByte_last (s : State) : (s.atPoint .fTx 5).afterFrameByte = (s.atPoint .fPoll 6).atPoll 0 s.r1 := rfl

/-- The rest of the frame bytes are sent in order, whatever comes in, and the poll begins. -/
theorem run_fTx_from (k : Nat) (s : State) (i : Nat) (h : s.IsQuiet) (hi : i + k = 5) :
    run (k + 1) (s.atPoint .fTx i) = .next
      (((s.exchangeAll ((List.range' i (k + 1)).map s.frame.byte)).atPoint .fPoll 6).atPoll 0 s.r1) := by
  induction k generalizing s i with
  | zero =>
    obtain rfl : i = 5 := hi
    rw [run_one, step_fTx s 5 h, State.afterFrameByte_last]
    rfl
  | succ k ih =>
    have hmore : i + 1 < 6 := by omega
    rw [run_succ _ (step_fTx s i h), State.afterFrameByte_more _ i hmore, ih _ (i + 1) (h.exchange _) (by omega),
      List.range'_succ (s := i), List.map_cons, State.exchangeAll_cons, State.exchange_frame, State.exchange_r1]

/-- The six bytes of FRAME are sent in order. -/
theorem run_fTx (s : State) (h : s.IsQuiet) :
    run 6 (s.atPoint .fTx 0) = .next (((s.exchangeAll s.frame.bytes).atPoint .fPoll 6).atPoll 0 s.r1) :=
  run_fTx_from 5 s 0 h rfl

/-! ## The poll of R1 (R153) -/

/-- An exchange neither reads nor writes the poll. -/
theorem State.exchangeAll_atPoll (txs : List Byte) (n : Nat) (r1 : Byte) (s : State) :
    (s.atPoll n r1).exchangeAll txs = (s.exchangeAll txs).atPoll n r1 := by
  induction txs generalizing s with
  | nil => rfl
  | cons tx txs ih => exact ih (s.exchange tx)

/-- An exchange of the poll. -/
theorem step_fPoll (s : State) (n : Nat) (r1 : Byte) (h : s.IsQuiet) :
    step (s.atPoll n r1) = .next (((s.exchange Config.filler).atPoll n r1).pollR1 s.draw) := by
  rw [step_at_fPoll (s.atPoll n r1) (h.atPoll n r1).resetIn rfl, (h.atPoll n r1).arrive]
  rfl

/-- Below the bound the poll skips bytes with bit 7 set. -/
theorem run_fPoll_misses (skipped rest : List Byte) (s : State) (n : Nat) (r1 : Byte) (h : s.IsQuiet)
    (hscript : s.card.script = skipped ++ rest) (hmsb : ∀ b ∈ skipped, b.msb = true)
    (hn : n + skipped.length < Config.nCmdPoll) :
    ∃ r1' : Byte, run skipped.length (s.atPoll n r1) = .next
      ((s.exchangeAll (List.replicate skipped.length Config.filler)).atPoll (n + skipped.length) r1') := by
  induction skipped generalizing s n r1 with
  | nil => exact ⟨r1, rfl⟩
  | cons b skipped ih =>
    rw [List.length_cons] at hn ⊢
    obtain ⟨hb, hskipped⟩ := List.forall_mem_cons.1 hmsb
    have hstep := step_fPoll s n r1 h
    have hbelow : n + 1 < Config.nCmdPoll := by omega
    rw [State.pollR1_goesOn _ _ (s.draw_of_script b _ hscript ▸ hb) (by exact hbelow.ne)] at hstep
    obtain ⟨r1', hrest⟩ := ih (s.exchange Config.filler) (n + 1) s.draw (h.exchange _) (by simp [hscript]) hskipped (by omega)
    refine ⟨r1', (run_succ _ hstep).trans (hrest.trans ?_)⟩
    rw [List.replicate_succ, State.exchangeAll_cons, Nat.add_right_comm, Nat.add_assoc]

/-! ## The trailing bytes (R154) -/

/-- TRAIL with the bytes of a list stored from a place on. -/
def Trail.setFrom : Trail → Nat → List Byte → Trail
  | t, _, [] => t
  | t, j, b :: bs => Trail.setFrom (t.set j b) (j + 1) bs

/-- A place the list does not reach keeps its byte. -/
theorem Trail.get_setFrom_outside (t : Trail) (i : Nat) (bs : List Byte) (j : Nat) (hj : j < 4)
    (hout : j < i ∨ i + bs.length ≤ j) : (t.setFrom i bs).get j = t.get j := by
  induction bs generalizing t i with
  | nil => rfl
  | cons b bs ih =>
    rw [List.length_cons] at hout
    exact (ih (t.set i b) (i + 1) (by omega)).trans ((t.get_set_eq i j b hj).trans (if_neg (by omega)))

/-- The bytes stored read back in order. -/
theorem Trail.get_setFrom (t : Trail) (i : Nat) (bs : List Byte) (j : Nat) (b : Byte) (hlen : i + bs.length ≤ 4)
    (hj : bs[j]? = some b) : (t.setFrom i bs).get (i + j) = b := by
  induction bs generalizing t i j with
  | nil => cases hj
  | cons b' bs ih =>
    rw [List.length_cons] at hlen
    cases j with
    | zero =>
      obtain rfl : b' = b := by simpa using hj
      exact ((t.set i b').get_setFrom_outside (i + 1) bs i (by omega) (by omega)).trans
        ((t.get_set_eq i i b' (by omega)).trans (if_pos rfl))
    | succ j =>
      rw [Nat.add_comm j 1, ← Nat.add_assoc]
      exact ih (t.set i b') (i + 1) j (by omega) hj

/-- A state of the trailing bytes: PHASE, IDX and what TRAIL holds. -/
def State.atTrail (i : Nat) (t : Trail) (s : State) : State := { s with phase := .fTrail, idx := i, trail := t }

theorem State.IsQuiet.atTrail {s : State} (h : s.IsQuiet) (i : Nat) (t : Trail) : (s.atTrail i t).IsQuiet :=
  ⟨h.resetIn, h.hostQueue⟩

/-- A trailing exchange. -/
theorem step_fTrail (s : State) (i : Nat) (t : Trail) (h : s.IsQuiet) :
    step (s.atTrail i t) = .next (if i + 1 < s.tlen.val then (s.exchange Config.filler).atTrail (i + 1) (t.set i s.draw)
      else ((s.exchange Config.filler).atTrail (i + 1) (t.set i s.draw)).resume) := by
  rw [step_at_fTrail (s.atTrail i t) (h.atTrail i t).resetIn rfl, (h.atTrail i t).arrive]
  rfl

/-- The trailing bytes are stored in order, and the caller goes on after the last. -/
theorem runsTo_fTrail (trailing rest : List Byte) (s : State) (i : Nat) (t : Trail) (h : s.IsQuiet)
    (hscript : s.card.script = trailing ++ rest) (hlen : i + trailing.length = s.tlen.val) (hpos : trailing ≠ []) :
    (s.atTrail i t).RunsTo trailing.length ((s.exchangeAll (List.replicate trailing.length Config.filler)).atTrail
      s.tlen.val (t.setFrom i trailing)).resume := by
  induction trailing generalizing s i t with
  | nil => exact absurd rfl hpos
  | cons b trailing ih =>
    have hstep := step_fTrail s i t h
    rw [s.draw_of_script b _ hscript] at hstep
    rw [List.length_cons] at hlen ⊢
    cases trailing with
    | nil =>
      rw [if_neg (by rw [← hlen]; exact lt_irrefl _), show i + 1 = s.tlen.val from hlen] at hstep
      exact .of_step (by nofun) hstep
    | cons b' trailing =>
      rw [if_pos (by rw [← hlen]; simp)] at hstep
      have hrest := ih (s.exchange Config.filler) (i + 1) (t.set i b) (h.exchange _) (by simp [hscript])
        (by rw [List.length_cons] at hlen ⊢; exact (Nat.add_right_comm ..).trans hlen) (by simp)
      rw [List.replicate_succ, State.exchangeAll_cons]
      exact .after_step hstep hrest

/-! ## The whole exchange -/

/-- What the framer leaves the caller: R1, TRAIL, POLL and IDX, the exchanges made and the point it stood at. -/
def State.answered (p : Phase) (r1 : Byte) (t : Trail) (n i : Nat) (s : State) : State :=
  { s with phase := p, r1 := r1, trail := t, poll := n, idx := i }

theorem State.atPoint_tlen (p : Phase) (i : Nat) (s : State) : (s.atPoint p i).tlen = s.tlen := rfl
theorem State.atPoint_trail (p : Phase) (i : Nat) (s : State) : (s.atPoint p i).trail = s.trail := rfl
theorem State.atPoll_tlen (n : Nat) (r1 : Byte) (s : State) : (s.atPoll n r1).tlen = s.tlen := rfl

theorem State.atPoint_card (p : Phase) (i : Nat) (s : State) : (s.atPoint p i).card = s.card := rfl

theorem State.atTrail_atPoll (n i : Nat) (r1 : Byte) (t : Trail) (s : State) :
    (s.atPoll n r1).atTrail i t = s.answered .fTrail r1 t n i := rfl

/-- The byte that ends the poll, the trailing bytes after it, and the caller goes on. -/
theorem runsTo_answer (answer : Byte) (trailing rest : List Byte) (s : State) (n : Nat) (r1 : Byte) (h : s.IsQuiet)
    (hscript : s.card.script = answer :: (trailing ++ rest)) (hend : answer.msb = false ∨ n + 1 = Config.nCmdPoll)
    (hlen : trailing.length = s.tlen.val) :
    ∃ p : Phase, (s.atPoll n r1).RunsTo (trailing.length + 1)
      ((s.exchangeAll (List.replicate (trailing.length + 1) Config.filler)).answered p answer
        (s.trail.setFrom 0 trailing) (n + 1) s.tlen.val).resume := by
  have hdraw : s.draw = answer := s.draw_of_script answer _ hscript
  have hends : endsR1Poll answer = true ∨ n + 1 = Config.nCmdPoll := hend.imp (by simp [endsR1Poll]) id
  have hstep := step_fPoll s n r1 h
  rw [hdraw, State.pollR1, if_pos (by exact hends), State.endPoll] at hstep
  rw [List.replicate_succ, State.exchangeAll_cons]
  cases trailing with
  | nil =>
    have h0 : s.tlen.val = 0 := hlen.symm
    rw [if_neg (by exact h0.not_gt)] at hstep
    rw [h0]
    exact ⟨.fPoll, .of_step (by nofun) hstep⟩
  | cons b trailing =>
    rw [if_pos (by exact (hlen ▸ Nat.succ_pos _ : 0 < s.tlen.val))] at hstep
    have hfirst : step (s.atPoll n r1) =
        .next ((s.exchange Config.filler).answered .fTrail answer s.trail (n + 1) 0) := hstep
    have hrest := runsTo_fTrail (b :: trailing) rest ((s.exchange Config.filler).atPoll (n + 1) answer) 0 s.trail
      ((h.exchange _).atPoll ..) (by simp [hscript, State.atPoll]) (by rw [Nat.zero_add]; exact hlen) (by simp)
    rw [State.exchangeAll_atPoll, State.atPoll_tlen, State.exchange_tlen, State.atTrail_atPoll,
      State.atTrail_atPoll] at hrest
    exact ⟨.fTrail, .after_step hfirst hrest⟩

theorem State.exchangeAll_atPoint (txs : List Byte) (p : Phase) (i : Nat) (s : State) :
    (s.atPoint p i).exchangeAll txs = (s.exchangeAll txs).atPoint p i := by
  induction txs generalizing s with
  | nil => rfl
  | cons tx txs ih => exact ih (s.exchange tx)

theorem State.answered_atPoint (p q : Phase) (r1 : Byte) (t : Trail) (n i j : Nat) (s : State) :
    (s.atPoint q j).answered p r1 t n i = s.answered p r1 t n i := rfl

theorem State.exchangeAll_tlen (txs : List Byte) (s : State) : (s.exchangeAll txs).tlen = s.tlen := by
  rw [State.exchangeAll_frame]

theorem State.exchangeAll_trail (txs : List Byte) (s : State) : (s.exchangeAll txs).trail = s.trail := by
  rw [State.exchangeAll_frame]

/-- With no access pending: the frame, the poll and the trailing bytes, from the entry of SendCommand. -/
theorem runsTo_resume (s : State) (h : s.IsQuiet) (six skipped trailing rest : List Byte) (answer : Byte)
    (hscript : s.card.script = six ++ skipped ++ answer :: (trailing ++ rest)) (hsix : six.length = 6)
    (hskipped : ∀ b ∈ skipped, b.msb = true) (hend : answer.msb = false ∧ skipped.length < 500 ∨ skipped.length = 499)
    (htrailing : trailing.length = s.tlen.val) :
    ∃ p : Phase, (s.atPoint .fTx 0).RunsTo (6 + (skipped ++ answer :: trailing).length)
      ((s.exchangeAll (s.frame.bytes ++ List.replicate (skipped ++ answer :: trailing).length Config.filler)).answered p
        answer (s.trail.setFrom 0 trailing) (skipped.length + 1) s.tlen.val).resume := by
  have hframe := run_fTx s h
  have hlen : six.length = s.frame.bytes.length := hsix
  generalize s.frame.bytes = bytes at hframe hlen ⊢
  rw [List.append_assoc] at hscript
  have hafterFrame : (s.exchangeAll bytes).card.script = skipped ++ answer :: (trailing ++ rest) := by
    rw [s.exchangeAll_card_of_script bytes six _ hscript hlen]
    rfl
  have hbelow : 0 + skipped.length < Config.nCmdPoll := by
    show 0 + skipped.length < 500
    omega
  have hatPoll : ((s.exchangeAll bytes).atPoint .fPoll 6).card.script = skipped ++ answer :: (trailing ++ rest) := by
    rw [State.atPoint_card, hafterFrame]
  obtain ⟨r1, hmisses⟩ := run_fPoll_misses skipped _ ((s.exchangeAll bytes).atPoint .fPoll 6) 0 s.r1
    ((h.exchangeAll bytes).atPoint ..) hatPoll hskipped hbelow
  have hafterMisses : ((s.exchangeAll bytes).exchangeAll (List.replicate skipped.length Config.filler)).card.script =
      answer :: (trailing ++ rest) := by
    rw [State.exchangeAll_card_of_script _ skipped _ _ hafterFrame (List.length_replicate).symm]
    rfl
  rw [State.exchangeAll_atPoint] at hmisses
  obtain ⟨p, hanswer⟩ := runsTo_answer answer trailing rest
    (((s.exchangeAll bytes).exchangeAll (List.replicate skipped.length Config.filler)).atPoint .fPoll 6)
    (0 + skipped.length) r1 (((h.exchangeAll bytes).exchangeAll _).atPoint ..) hafterMisses
    (hend.imp And.left fun h499 => by rw [h499]) (htrailing.trans (by
      rw [State.atPoint_tlen, State.exchangeAll_tlen, State.exchangeAll_tlen]))
  rw [State.exchangeAll_atPoint, State.answered_atPoint, State.atPoint_tlen, State.atPoint_trail, State.exchangeAll_tlen,
    State.exchangeAll_tlen, State.exchangeAll_trail, State.exchangeAll_trail, ← State.exchangeAll_append,
    ← State.exchangeAll_append, List.append_assoc, ← List.replicate_add, Nat.zero_add] at hanswer
  rw [Nat.zero_add, ← State.exchangeAll_append] at hmisses
  rw [List.length_append, List.length_cons]
  exact ⟨p, .after hframe (.after hmisses hanswer)⟩

/-- The records of a command exchange (R130): the six frame bytes, then fillers. -/
theorem State.exchangeAll_command_trace (bytes six received rest : List Byte) (s : State)
    (hscript : s.card.script = six ++ (received ++ rest)) (hlen : six.length = bytes.length) :
    (s.exchangeAll (bytes ++ List.replicate received.length Config.filler)).trace = s.trace ++
      (List.zipWith (fun tx rx => { tx := tx, rx := rx, sel := s.sel, clk := s.clk }) bytes six ++
        xfers Config.filler s.sel s.clk received) := by
  have hafter : (s.exchangeAll bytes).card.script = received ++ rest := by
    rw [s.exchangeAll_card_of_script bytes six _ hscript hlen]
    rfl
  have hsix : s.card.draws bytes.length = six := hlen ▸ CardSource.draws_of_script six _ s.card hscript
  have hlines : (s.exchangeAll bytes).sel = s.sel ∧ (s.exchangeAll bytes).clk = s.clk := by
    rw [State.exchangeAll_frame]
    exact ⟨rfl, rfl⟩
  rw [State.exchangeAll_append, State.exchangeAll_received Config.filler received rest _ hafter, State.exchangeAll_trace,
    hsix, hlines.1, hlines.2, List.append_assoc]

/-- Beside what the host writes, the framer writes R1, TRAIL, POLL, IDX, PHASE and what an exchange writes. -/
theorem State.hostOf_answered (a s : State) (txs : List Byte) (p : Phase) (r1 : Byte) (t : Trail) (n i : Nat)
    (ha : a = a.hostOf s) :
    a.hostOf ((s.quiet.exchangeAll txs).answered p r1 t n i) = { a with
      r1 := r1, trail := t, poll := n, idx := i, trace := (s.quiet.exchangeAll txs).trace
      card := (s.quiet.exchangeAll txs).card, ser := (s.quiet.exchangeAll txs).ser, phase := p } := by
  rw [ha, State.exchangeAll_frame]
  rfl

/-- A command exchange from its first frame byte on, beside the host's accesses. -/
theorem run_command (s : State) (six skipped trailing rest : List Byte) (answer : Byte) (hr : s.resetIn = false)
    (hp : s.phase = .fTx) (hidx : s.idx = 0) (hscript : s.card.script = six ++ skipped ++ answer :: (trailing ++ rest))
    (hsix : six.length = 6) (hskipped : ∀ b ∈ skipped, b.msb = true)
    (hend : answer.msb = false ∧ skipped.length < 500 ∨ skipped.length = 499) (htrailing : trailing.length = s.tlen.val) :
    ∃ u : State, run (6 + skipped.length + 1 + s.tlen.val) s = .next u.resume ∧ u.sel = s.sel ∧ u.r1 = answer ∧
      (∀ j b, trailing[j]? = some b → u.trail.get j = b) ∧
      (∀ j, s.tlen.val ≤ j → j < 4 → u.trail.get j = s.trail.get j) ∧
      u.trace = s.trace ++
        (List.zipWith (fun tx rx => { tx := tx, rx := rx, sel := s.sel, clk := s.clk }) s.frame.bytes six ++
          xfers Config.filler s.sel s.clk (skipped ++ answer :: trailing)) ∧
      u.card = s.card.after (6 + skipped.length + 1 + s.tlen.val) rest ∧
      u = { s.arrivals (6 + skipped.length + 1 + s.tlen.val) with
          r1 := answer, trail := u.trail, poll := skipped.length + 1, idx := s.tlen.val, trace := u.trace, card := u.card
          ser := u.ser, phase := u.phase } := by
  have hreceived : s.card.script = six ++ ((skipped ++ answer :: trailing) ++ rest) := by simp [hscript]
  have hsteps : 6 + skipped.length + 1 + s.tlen.val = 6 + (skipped ++ answer :: trailing).length := by
    rw [List.length_append, List.length_cons]
    omega
  obtain ⟨p, hruns⟩ := runsTo_resume s.quiet (s.isQuiet_quiet hr) six skipped trailing rest answer hscript hsix hskipped
    hend htrailing
  rw [State.atPoint_self s.quiet _ _ hp hidx] at hruns
  have hrun := State.RunsTo.beside_host hr hruns
  rw [← State.resume_hostOf] at hrun
  rw [hsteps]
  generalize skipped ++ answer :: trailing = received at hrun hreceived ⊢
  have hcount : (s.quiet.frame.bytes ++ List.replicate received.length Config.filler).length = 6 + received.length := by
    rw [List.length_append, List.length_replicate]
    rfl
  have htrace := s.quiet.exchangeAll_command_trace s.quiet.frame.bytes six received rest hreceived hsix
  have hcard := s.quiet.exchangeAll_card_of_script (s.quiet.frame.bytes ++ List.replicate received.length Config.filler)
    (six ++ received) rest (hreceived.trans (List.append_assoc ..).symm) (by rw [hcount, List.length_append, hsix])
  rw [hcount] at hcard
  have hframe := State.hostOf_answered (s.arrivals (6 + received.length)) s
    (s.quiet.frame.bytes ++ List.replicate received.length Config.filler) p answer (s.quiet.trail.setFrom 0 trailing)
    (skipped.length + 1) s.quiet.tlen.val (s.arrivals_eq _ (by simp [hp]))
  have hsel : (s.quiet.exchangeAll (s.quiet.frame.bytes ++ List.replicate received.length Config.filler)).sel =
      s.quiet.sel := by
    rw [State.exchangeAll_frame]
  generalize s.quiet.exchangeAll _ = exchanged at hrun htrace hcard hframe hsel
  have hplaces := Fin.is_le s.tlen
  refine ⟨_, hrun, hsel, rfl, fun j b hj => ?_, fun j hlow hhigh => ?_, htrace, hcard, hframe⟩
  · exact Nat.zero_add j ▸ s.trail.get_setFrom 0 trailing j b (by omega) hj
  · exact s.trail.get_setFrom_outside 0 trailing j hhigh (by omega)

/-- Settles O23: from the entry of SendCommand the card is selected and the first frame byte is due. -/
theorem sendCommandExchange : Obligations.SendCommandExchange := by
  intro s0 index argument crc tlen ret six skipped trailing rest answer hr hscript hsix hskipped hend htrailing
  exact run_command (s0.sendCommand index argument crc tlen ret) six skipped trailing rest answer hr rfl rfl hscript hsix
    hskipped hend htrailing

end Sys2Proof.Machine
end

section
/-! PROOFS. The initialization sequencer (42_init_sequencer.md): the power-up, the answers of its commands, and how it
ends. -/

namespace Sys2Proof.Machine

/-! ## The power-up (R181, R182) -/

/-- A power-up filler. -/
theorem step_iPowerup (s : State) (i : Nat) (h : s.IsQuiet) :
    step (s.atPoint .iPowerup i) = .next ((s.exchange Config.filler).atPoint .iPowerup i).afterPowerup := by
  rw [step_at_iPowerup (s.atPoint .iPowerup i) (h.atPoint ..).resetIn rfl, (h.atPoint ..).arrive]
  rfl

theorem State.afterPowerup_more (s : State) (i : Nat) (hi : i + 1 < Config.nPowerup) :
    (s.atPoint .iPowerup i).afterPowerup = s.atPoint .iPowerup (i + 1) := if_pos hi

theorem State.afterPowerup_last (s : State) : (s.atPoint .iPowerup 9).afterPowerup = s.atPoint .iCmd0 10 := rfl

/-- The rest of the power-up fillers, then CMD0 is due. -/
theorem run_iPowerup (k : Nat) (s : State) (i : Nat) (h : s.IsQuiet) (hi : i + k = 9) :
    run (k + 1) (s.atPoint .iPowerup i) = .next
      ((s.exchangeAll (List.replicate (k + 1) Config.filler)).atPoint .iCmd0 10) := by
  induction k generalizing s i with
  | zero =>
    obtain rfl : i = 9 := hi
    rw [run_one, step_iPowerup s 9 h, State.afterPowerup_last]
    rfl
  | succ k ih =>
    have hmore : i + 1 < 10 := by omega
    rw [run_succ _ (step_iPowerup s i h), State.afterPowerup_more _ i hmore, ih _ (i + 1) (h.exchange _) (by omega),
      List.replicate_succ (n := k + 1), State.exchangeAll_cons]

/-- Settles O25: the entry, then ten fillers with the lines as the entry left them, beside the host's accesses. -/
theorem initStartsWithTenFillersDeselectedAtSlowClock : Obligations.InitStartsWithTenFillersDeselectedAtSlowClock := by
  intro s hr hp
  have hentry : step s.quiet = .next (s.quiet.initEntry.atPoint .iPowerup 0) := by
    rw [step_at_iEntry s.quiet hr hp, s.quiet.arrive_nil rfl]
    rfl
  have hquiet : run 11 s.quiet = _ := (run_succ 10 hentry).trans (run_iPowerup 9 s.quiet.initEntry 0 ⟨hr, rfl⟩ rfl)
  have hrun := run_hostOf_busy 11 s s.quiet _ s.hostOf_quiet rfl hr hquiet nofun
  have htrace := s.quiet.initEntry.exchangeAll_replicate_trace Config.filler 10
  rw [State.exchangeAll_frame] at hrun
  exact ⟨_, hrun, rfl, rfl, rfl, rfl, rfl, _, CardSource.length_draws 10 _, htrace⟩

/-! ## The answer to CMD0 (R183) -/

/-- The poll exchange that ends a command without trailing bytes: what the caller finds. -/
def State.polled (s : State) : State :=
  { s.arrive.exchangeWith Config.filler s.draw with poll := s.poll + 1, r1 := s.draw, idx := 0 }

theorem step_polled (s : State) (hr : s.resetIn = false) (hp : s.phase = .fPoll) (htlen : s.tlen = 0)
    (hend : s.draw.msb = false ∨ s.poll + 1 = 500) : step s = .next s.polled.resume :=
  step_at_lastPoll s hr hp htlen hend

/-- Settles O26: the invariant gives the lines and the card state, and R1 decides. -/
theorem cmd0AnswerDecidesInit : Obligations.Cmd0AnswerDecidesInit := by
  intro s h hr hp hret hend
  obtain ⟨-, hframer⟩ := (State.pointOk_fPoll hp).1 h.point
  obtain ⟨hsel, -, htlen, hcaller⟩ := (State.framerOk_iff s).1 hframer
  obtain ⟨-, hclk, hinit, hclass⟩ := (State.initOk_iff s).1 (s.callerOk_init hcaller (by simp [hret]) (by simp [hret]))
  have hstep := step_polled s hr hp (by rw [htlen, hret]; rfl) hend
  have hresume : s.polled.resume = s.polled.afterCmd0 := by
    rw [State.resume, show s.polled.ret = .iCmd0 from s.arrive_ret.trans hret]
  rw [hresume, State.afterCmd0] at hstep
  by_cases h1 : s.draw = 0x01
  · rw [if_pos (by exact h1)] at hstep
    refine ⟨_, hstep, rfl, ?_⟩
    simp [State.polled, hsel, hclk, hinit, hclass, h1]
  · rw [if_neg (by exact h1)] at hstep
    refine ⟨_, hstep, rfl, ?_⟩
    simpa [State.polled, hsel, hclk, hinit, hclass] using h1

/-! ## The ACMD41 loop (R187, R190, R194) -/

theorem State.afterCmd41_again (s : State) (h0 : s.r1 ≠ 0x00) (hmore : s.retry + 1 ≠ 65535) :
    s.afterCmd41 = { s with retry := s.retry + 1, phase := .iLoop55 } := if_neg (not_or.2 ⟨h0, hmore⟩)

theorem State.afterCmd41_v2 (s : State) (hend : s.r1 = 0x00 ∨ s.retry + 1 = 65535) (hv : s.v2 = true) :
    s.afterCmd41 = { s with retry := s.retry + 1, phase := .iCmd58 } := (if_pos hend).trans (if_pos hv)

theorem State.afterCmd41_legacy (s : State) (hend : s.r1 = 0x00 ∨ s.retry + 1 = 65535) (hv : s.v2 = false) :
    s.afterCmd41 = { s with retry := s.retry + 1, capacityClass := .sdsc, phase := .iFinDeselect } :=
  (if_pos hend).trans (if_neg (by simp [hv]))

/-- The poll exchange that ends CMD41's answer. -/
theorem step_afterCmd41 (s : State) (hr : s.resetIn = false) (hp : s.phase = .fPoll) (hret : s.ret = .iLoop41)
    (htlen : s.tlen = 0) (hend : s.draw.msb = false ∨ s.poll + 1 = 500) : step s = .next s.polled.afterCmd41 := by
  have hresume : s.polled.resume = s.polled.afterCmd41 := by
    rw [State.resume, show s.polled.ret = .iLoop41 from s.arrive_ret.trans hret]
  rw [step_polled s hr hp htlen hend, hresume]

theorem State.polled_retry (s : State) : s.polled.retry = s.retry := s.arrive_retry
theorem State.polled_v2 (s : State) : s.polled.v2 = s.v2 := s.arrive_v2
theorem State.polled_result (s : State) : s.polled.result = s.result := s.arrive_result
theorem State.polled_results (s : State) : s.polled.results = s.results := s.arrive_results
theorem State.polled_capacityClass (s : State) : s.polled.capacityClass = s.capacityClass := s.arrive_capacityClass

/-- Settles O28: CMD55's answer is ignored, and CMD41's decides with the count of iterations. -/
theorem acmd41LoopRunsToReadyOrExhaustion : Obligations.Acmd41LoopRunsToReadyOrExhaustion := by
  refine ⟨fun s hr hp hret htlen hend => ?_,
    fun s hr hp hret htlen hend => ⟨_, step_afterCmd41 s hr hp hret htlen hend, ?_⟩⟩
  · have hresume : s.polled.resume = s.polled.afterCmd55 := by
      rw [State.resume, show s.polled.ret = .iLoop55 from s.arrive_ret.trans hret]
    exact ⟨_, (step_polled s hr hp htlen hend).trans (congrArg _ hresume), rfl, s.polled_retry, s.polled_result⟩
  · have hcount : s.polled.retry + 1 = s.retry + 1 := congrArg (· + 1) s.polled_retry
    by_cases hleaves : s.draw = 0x00 ∨ s.retry + 1 = 65535
    · have hends : s.polled.r1 = 0x00 ∨ s.polled.retry + 1 = 65535 := hcount.symm ▸ hleaves
      cases hv : s.v2 with
      | true =>
        rw [State.afterCmd41_v2 _ hends (s.polled_v2.trans hv)]
        exact ⟨hcount, s.polled_result, s.polled_results, fun h => absurd hleaves (not_or.2 h),
          fun _ => ⟨fun _ => ⟨rfl, s.polled_capacityClass⟩, nofun⟩⟩
      | false =>
        rw [State.afterCmd41_legacy _ hends (s.polled_v2.trans hv)]
        exact ⟨hcount, s.polled_result, s.polled_results, fun h => absurd hleaves (not_or.2 h),
          fun _ => ⟨nofun, fun _ => ⟨rfl, rfl⟩⟩⟩
    · obtain ⟨h0, hmore⟩ := not_or.1 hleaves
      rw [State.afterCmd41_again _ h0 (by rwa [hcount])]
      exact ⟨hcount, s.polled_result, s.polled_results, fun _ => ⟨rfl, s.polled_capacityClass⟩,
        fun h => absurd h hleaves⟩

/-- A call of SendCommand is exec of the caller's instruction. -/
theorem exec_callInstr_arrive (s : State) (p : RetPoint) :
    exec (s.callInstr p) s.arrive = .next (s.arrive.callCommand p) :=
  exec_callInstr s s.arrive p s.arrive_par.symm s.arrive_v2.symm s.arrive_capacityClass.symm s.arrive_sector.symm

/-- Settles O29: the step is the call of CMD41, whose argument is the branch's. -/
theorem acmd41ArgumentFollowsTheBranch : Obligations.Acmd41ArgumentFollowsTheBranch := by
  intro s hr hp
  have hcall := (step_at_iLoop41 s hr hp).trans (exec_callInstr_arrive s .iLoop41).symm
  exact ⟨fun hv => by rwa [State.callInstr, if_pos hv] at hcall,
    fun hv => by rwa [State.callInstr, if_neg (by simp [hv])] at hcall⟩

/-! ## The answer to CMD58 and the end of INIT (R188 to R191) -/

/-- CCS is bit 6 of the first byte of the OCR (R188). -/
theorem State.ccs_eq (s : State) : s.ccs = (s.trail.get 0).getLsbD 6 := by
  have hmask : s.trail.get 0 &&& Config.ocrCcsMask = if (s.trail.get 0).getLsbD 6 then Config.ocrCcsMask else 0 :=
    BitVec.and_twoPow _ 6
  rw [State.ccs, hmask]
  cases (s.trail.get 0).getLsbD 6 <;> rfl

/-- The last trailing exchange of a command with four of them: what the caller finds. -/
def State.trailed (s : State) : State :=
  { s.arrive.exchangeWith Config.filler s.draw with trail := s.arrive.trail.set 3 s.draw, idx := 4 }

theorem State.trailed_r1 (s : State) : s.trailed.r1 = s.r1 := s.arrive_r1
theorem State.trailed_capacityClass (s : State) : s.trailed.capacityClass = s.capacityClass := s.arrive_capacityClass

theorem State.trailed_first (s : State) : s.trailed.trail.get 0 = s.trail.get 0 := by
  simp [State.trailed, Trail.get_set]

/-- The last trailing byte after CMD58 (R154, R188). -/
theorem step_afterCmd58 (s : State) (hr : s.resetIn = false) (hp : s.phase = .fTrail) (hret : s.ret = .iCmd58)
    (htlen : s.tlen = 4) (hidx : s.idx = 3) : step s = .next s.trailed.afterCmd58 := by
  have hresume : s.trailed.resume = s.trailed.afterCmd58 := by
    rw [State.resume, show s.trailed.ret = .iCmd58 from s.arrive_ret.trans hret]
  rw [step_at_fTrail s hr hp, hidx, State.storeTrail_frame, if_neg (by simp [htlen]), ← hresume]
  rfl

/-- The finalize step from the entry (R191). -/
theorem run_from_iFinDeselect (s : State) (hr : s.resetIn = false) (hp : s.phase = .iFinDeselect) :
    ∃ t : State, run 3 s = .next t ∧ t.phase = .idle ∧ t.result = .ok ∧ t.initialized = true ∧
      t.capacityClass = s.capacityClass := by
  have hrun := (run_succ 2 (step_at_iFinDeselect s hr hp)).trans (run_from_iFinFiller _ (by simpa using hr) rfl)
  exact ⟨_, hrun, rfl, rfl, rfl, by simp⟩

/-- Settles O30: CMD58 is called, after the last iteration too; its answer decides the class, which the finalize step
leaves. -/
theorem cmd58AnswerDecidesTheCapacityClass : Obligations.Cmd58AnswerDecidesTheCapacityClass := by
  refine ⟨fun s hr hp => (step_at_iCmd58 s hr hp).trans (exec_callInstr_arrive s .iCmd58).symm,
    fun s hr hp hret htlen hv hlast hend => ⟨_, step_afterCmd41 s hr hp hret htlen hend, ?_⟩,
    fun s h hr hp hret hidx => ?_⟩
  · rw [State.afterCmd41_v2 _ (.inr (by rwa [s.polled_retry])) (s.polled_v2.trans hv)]
  · obtain ⟨-, -, htlen, hcaller⟩ := (State.framerOk_iff s).1 ((State.pointOk_fTrail hp).1 h.point).2
    obtain ⟨-, -, -, hclass⟩ := (State.initOk_iff s).1 (s.callerOk_init hcaller (by simp [hret]) (by simp [hret]))
    have hstep := step_afterCmd58 s hr hp hret (by rw [htlen, hret]; rfl) hidx
    obtain ⟨t, hrun, hidle, hok, hinit, hkeeps⟩ :=
      run_from_iFinDeselect s.trailed.afterCmd58 (s.arrive_resetIn.trans hr) rfl
    refine ⟨t, (run_succ 3 hstep).trans hrun, hidle, hok, hinit, ?_⟩
    rw [hkeeps, State.afterCmd58, State.ccs_eq, s.trailed_r1, s.trailed_first, s.trailed_capacityClass, hclass]
    exact ⟨fun h0 hccs => by rw [if_pos (by exact h0), if_pos hccs],
      fun h0 hccs => by rw [if_pos (by exact h0), if_neg (by rw [hccs]; exact Bool.false_ne_true)],
      fun h0 => ⟨if_neg h0, rfl⟩⟩

/-- Settles O32: the step that ends INIT is CMD0's poll exchange or the switch to the fast clock. -/
theorem initEndsFailedOrReady : Obligations.InitEndsFailedOrReady := by
  intro s t h hr hop hp hstep ht
  have hf : s.phase ≠ .fSelect := fun hf => Bool.false_ne_true ((State.pointOk_fSelect hf).symm.trans h.point)
  have htransfer (e : Engine) (he : s.reqOp = e.op) : False := by
    rw [hop] at he
    cases e <;> cases he
  rcases step_idle s t hr hp hf hstep ht with (⟨hpoll | htrail, hret⟩ | hfast) | ⟨hhead, -⟩ | ⟨hend, -⟩ | ⟨herr, -⟩
  · have hend : s.draw.msb = false ∨ s.poll + 1 = 500 := by
      by_contra hmore
      obtain ⟨hmsb, hn⟩ := not_or.1 hmore
      obtain ⟨u, hu, hstays, -⟩ := unansweredPollGoesOn s hr hpoll (Bool.eq_true_of_not_eq_false hmsb) hn
      cases Host.Outcome.next.inj (hstep.symm.trans hu)
      exact Phase.noConfusion (hstays.symm.trans ht)
    obtain ⟨u, hu, -, hsel, hclk, hinit, hclass, -, hidle, hfailed⟩ := cmd0AnswerDecidesInit s h hr hpoll hret hend
    cases Host.Outcome.next.inj (hstep.symm.trans hu)
    have hanswer : s.draw ≠ 0x01 := fun h1 => Phase.noConfusion ((hidle h1).1.symm.trans ht)
    exact .inl ⟨(hfailed hanswer).2.1, hinit, hclass, hsel, hclk⟩
  · obtain ⟨hidx, hframer⟩ := (State.pointOk_fTrail htrail).1 h.point
    obtain ⟨-, -, htlen, -⟩ := (State.framerOk_iff s).1 hframer
    rw [htlen, hret] at hidx
    exact absurd hidx (Nat.not_lt_zero _)
  · obtain ⟨hsel, -, -, -⟩ := (State.pointOk_iFin (.inr hfast)).1 h.point
    rw [step_at_iFinFast s hr hfast, Host.Outcome.next.injEq] at hstep
    subst hstep
    exact .inr ⟨rfl, rfl, s.arrive_capacityClass, s.arrive_sel.trans hsel, rfl⟩
  · exfalso
    rcases hhead with hhead | hhead
    · exact htransfer .read ((State.requestOk_iff ..).1 ((State.pointOk_head .read hhead).1 h.point)).1
    · exact htransfer .write ((State.requestOk_iff ..).1 ((State.pointOk_head .write hhead).1 h.point)).1
  · exfalso
    rcases hend with hend | hend
    · exact htransfer .read ((State.sectorOk_iff ..).1 ((State.pointOk_endFiller .read hend).1 h.point).2).1
    · exact htransfer .write ((State.sectorOk_iff ..).1 ((State.pointOk_endFiller .write hend).1 h.point).2).1
  · exfalso
    rcases herr with herr | herr
    · exact htransfer .read ((State.pointOk_errFiller .read herr).1 h.point).2.1
    · exact htransfer .write ((State.pointOk_errFiller .write herr).1 h.point).2.1

end Sys2Proof.Machine
end

section
/-! PROOFS. The block transfer engine (43_block_transfer.md): the command of a sector, the token poll, the end of a
sector and the busy-wait. -/

namespace Sys2Proof.Machine

/-! ## The command of a sector (R231, R241) -/

/-- The step that calls the command of a sector: at its call site, and at the head of a transfer with a sector to do. -/
theorem step_sectorCommand (e : Engine) (s : State) (hr : s.resetIn = false)
    (hp : s.phase = e.callSite ∨ s.phase = e.head ∧ s.remain ≠ 0) : step s = .next (s.arrive.callCommand e.caller) := by
  cases e with
  | read =>
    rcases hp with hp | ⟨hp, hremain⟩
    · exact step_at_rCmd17 s hr hp
    · exact (step_at_rHead s hr hp).trans (congrArg _ (if_neg hremain))
  | write =>
    rcases hp with hp | ⟨hp, hremain⟩
    · exact step_at_wCmd24 s hr hp
    · exact (step_at_wHead s hr hp).trans (congrArg _ (if_neg hremain))

/-- The frame of a call is the caller's, the host's access aside. -/
theorem State.arrive_callCommand_frame (s : State) (p : RetPoint) : (s.arrive.callCommand p).frame = s.callFrame p := by
  have hframe : s.arrive.callFrame p = s.callFrame p := by cases p <;> simp [State.callFrame, State.arg41]
  exact hframe

/-- Settles O41: the head's step is the call of the first sector's command, whose operands the request left. -/
theorem transfersSendTheCommandOfTheSector : Obligations.TransfersSendTheCommandOfTheSector := by
  have hcall (e : Engine) (s : State) (hr : s.resetIn = false)
      (hp : s.phase = e.callSite ∨ s.phase = e.head ∧ s.remain ≠ 0) : step s = exec (s.callInstr e.caller) s.arrive :=
    (step_sectorCommand e s hr hp).trans (exec_callInstr_arrive s e.caller).symm
  refine ⟨fun s hr => ⟨fun hp => ?_, fun hp => ?_⟩, fun s sector count hr hp hcount hlen => ?_⟩
  · exact ⟨_, step_sectorCommand .read s hr hp, hcall .read s hr hp, s.arrive_callCommand_frame .rCmd17, rfl, rfl⟩
  · exact ⟨_, step_sectorCommand .write s hr hp, hcall .write s hr hp, s.arrive_callCommand_frame .wCmd24, rfl, rfl⟩
  · obtain ⟨hread, hwrite⟩ := exec_transfer_accepted s sector count hp hlen
    exact ⟨⟨_, hread, hcall .read _ hr (.inr ⟨rfl, hcount⟩)⟩,
      ⟨_, hwrite, hcall .write _ hr (.inr ⟨rfl, hcount⟩)⟩⟩

/-! ## The token poll (R234) -/

/-- The exchange of the token poll that receives the start token. -/
theorem step_rToken_start (s : State) (n : Nat) (h : s.IsQuiet) (hdraw : s.draw = 0xFE) :
    step (s.atToken n) = .next (((s.exchange Config.filler).atToken (n + 1)).atPoint .rData 0) := by
  rw [step_at_rToken (s.atToken n) (h.atToken n).resetIn rfl, (h.atToken n).arrive]
  exact congrArg Host.Outcome.next (if_pos hdraw)

/-- Settles O45: the poll skips the other bytes and takes the start token, beside the host's accesses. -/
theorem tokenPollAcceptsTheStartToken : Obligations.TokenPollAcceptsTheStartToken := by
  intro s skipped rest hr hp hpoll hscript hmiss hlen
  have hquiet := s.isQuiet_quiet hr
  have hmisses := run_rToken_misses skipped _ s.quiet 0 hquiet hscript hmiss ((Nat.zero_add _).trans_lt hlen)
  rw [State.atToken_self s.quiet 0 hp hpoll] at hmisses
  have hdraw := s.quiet.exchangeAll_draw (List.replicate skipped.length Config.filler) skipped rest 0xFE hscript
    List.length_replicate.symm
  have hrun := (run_snoc _ hmisses).trans (step_rToken_start _ _ (hquiet.exchangeAll _) hdraw)
  have hbeside := run_hostOf_busy _ s s.quiet _ s.hostOf_quiet rfl hr hrun nofun
  have hwhole : s.quiet.card.script = skipped ++ [0xFE] ++ rest := hscript.trans (List.append_cons ..)
  have htrace := s.quiet.exchangeAll_received Config.filler (skipped ++ [0xFE]) rest hwhole
  have hcard := s.quiet.exchangeAll_card_of_script (List.replicate (skipped ++ [0xFE]).length Config.filler) _ rest hwhole
    List.length_replicate.symm
  have hresult : (s.quiet.exchangeAll (List.replicate skipped.length Config.filler)).result = s.result := by
    rw [State.exchangeAll_frame]
    rfl
  rw [List.length_append, List.length_singleton, List.replicate_succ', State.exchangeAll_append] at htrace hcard
  rw [List.length_append, List.length_replicate] at hcard
  exact ⟨_, hbeside, rfl, rfl, hresult, hcard, htrace⟩

/-! ## The end of a sector (R236, R246, R221) -/

theorem step_at_endDeselect (e : Engine) (s : State) (hr : s.resetIn = false) (hp : s.phase = e.endDeselect) :
    step s = .next { s.arrive.deselect with phase := e.endFiller } := by
  cases e with
  | read => exact step_at_rEndDeselect s hr hp
  | write => exact step_at_wEndDeselect s hr hp

theorem step_at_endFiller (e : Engine) (s : State) (hr : s.resetIn = false) (hp : s.phase = e.endFiller) :
    step s = .next ((s.arrive.exchangeWith Config.filler s.draw).advanceSector.nextSector e) := by
  cases e with
  | read => exact step_at_rEndFiller s hr hp
  | write => exact step_at_wEndFiller s hr hp

theorem State.nextSector_last (e : Engine) (s : State) (h : s.remain = 0) : s.nextSector e = s.finish .ok := if_pos h

theorem State.nextSector_more (e : Engine) (s : State) (h : s.remain ≠ 0) :
    s.nextSector e = { s with phase := e.callSite } := if_neg h

/-- A completed sector closed and counted: deselected, the closing filler exchanged, the sector counted. -/
def State.sectorClosed (e : Engine) (s : State) : State :=
  (({ s.arrive.deselect with phase := e.endFiller } : State).arrive.exchangeWith Config.filler s.draw).advanceSector

theorem run_endDeselect (e : Engine) (s : State) (hr : s.resetIn = false) (hp : s.phase = e.endDeselect) :
    run 2 s = .next ((s.sectorClosed e).nextSector e) := by
  have hfiller := step_at_endFiller e { s.arrive.deselect with phase := e.endFiller } (s.arrive_resetIn.trans hr) rfl
  have hdraw : State.draw { s.arrive.deselect with phase := e.endFiller } = s.draw := s.arrive_draw
  rw [hdraw] at hfiller
  exact (run_succ 1 (step_at_endDeselect e s hr hp)).trans ((run_one _).trans hfiller)

section
variable (e : Engine) (s : State)

@[simp] theorem State.sectorClosed_sel : (s.sectorClosed e).sel = false := by simp [State.sectorClosed]
@[simp] theorem State.sectorClosed_offset : (s.sectorClosed e).offset = s.offset + 512 := by
  simp [State.sectorClosed, Config.blockLen]
@[simp] theorem State.sectorClosed_sector : (s.sectorClosed e).sector = s.sector + 1 := by simp [State.sectorClosed]
@[simp] theorem State.sectorClosed_remain : (s.sectorClosed e).remain = s.remain - 1 := by simp [State.sectorClosed]
@[simp] theorem State.sectorClosed_capacityClass : (s.sectorClosed e).capacityClass = s.capacityClass := by
  simp [State.sectorClosed]
@[simp] theorem State.sectorClosed_clk : (s.sectorClosed e).clk = s.clk := by simp [State.sectorClosed]
@[simp] theorem State.sectorClosed_result : (s.sectorClosed e).result = s.result := by simp [State.sectorClosed]
@[simp] theorem State.sectorClosed_results : (s.sectorClosed e).results = s.results := by simp [State.sectorClosed]
@[simp] theorem State.sectorClosed_resetIn : (s.sectorClosed e).resetIn = s.resetIn := by simp [State.sectorClosed]
@[simp] theorem State.sectorClosed_trace : (s.sectorClosed e).trace =
    s.trace ++ [{ tx := Config.filler, rx := s.draw, sel := false, clk := s.clk }] := by simp [State.sectorClosed]

/-- Closing a sector leaves the buffer: the host can bind another only while the block is idle. -/
theorem State.sectorClosed_buf (hp : s.phase = e.endDeselect) : (s.sectorClosed e).buf = s.buf := by
  have hbuf : s.arrive.buf = s.buf := (s.arrive_buffer (by rw [hp]; cases e <;> nofun)).1
  exact (State.arrive_buffer { s.arrive.deselect with phase := e.endFiller } (by cases e <;> nofun)).1.trans hbuf

end

/-- A completed sector, for either transfer. -/
theorem completedSector (e : Engine) (s : State) (hr : s.resetIn = false) (hp : s.phase = e.endDeselect) :
    ∃ t : State, run 2 s = .next t ∧ t.sel = false ∧ t.offset = s.offset + 512 ∧
      t.sector.toNat = (s.sector.toNat + 1) % 2 ^ 32 ∧ t.remain = s.remain - 1 ∧ t.buf = s.buf ∧
      t.capacityClass = s.capacityClass ∧ t.clk = s.clk ∧
      t.trace = s.trace ++ [{ tx := Config.filler, rx := s.draw, sel := false, clk := s.clk }] ∧
      (s.remain = 1 → t.phase = .idle ∧ t.result = .ok ∧ t.results = s.results ++ [.ok]) ∧
      (s.remain ≠ 1 → t.result = s.result ∧ t.phase = e.callSite ∧
        ∃ v : State, step t = .next v ∧ v.sel = true ∧ v.trace = t.trace) := by
  refine ⟨_, run_endDeselect e s hr hp, ?_⟩
  by_cases h1 : s.remain = 1
  · rw [State.nextSector_last e _ (by simp [h1])]
    simp [h1, s.sectorClosed_buf e hp, BitVec.toNat_add]
  · rw [State.nextSector_more e _ (by rwa [s.sectorClosed_remain, Ne, sub_eq_zero])]
    have hnext := step_sectorCommand e { s.sectorClosed e with phase := e.callSite } (by simpa using hr) (.inl rfl)
    refine ⟨by simp, by simp, by simp [BitVec.toNat_add], by simp, s.sectorClosed_buf e hp, by simp, by simp, by simp,
      fun h => absurd h h1, fun _ => ⟨by simp, rfl, _, hnext, rfl, State.arrive_trace _⟩⟩

/-- Settles O48: the two steps, the end of the transfer or the next sector's command. -/
theorem completedSectorIsClosedAndCounted : Obligations.CompletedSectorIsClosedAndCounted := by
  intro s hr hp
  rcases hp with hp | hp
  · simp only [hp, if_true]
    exact completedSector .read s hr hp
  · simp only [hp, reduceCtorEq, if_false]
    exact completedSector .write s hr hp

/-! ## The busy-wait (R245, R248) -/

/-- The data response that is accepted (R244). -/
theorem step_wResp_accepted (s : State) (hr : s.resetIn = false) (hp : s.phase = .wResp)
    (hacc : s.draw.extractLsb' 0 5 = 0b00101) :
    step s = .next { s.arrive.exchangeWith Config.filler s.draw with resp := s.draw }.enterBusy :=
  (step_at_wResp s hr hp).trans (congrArg _ (if_pos ((accepted_iff _).2 hacc)))

theorem State.enterBusy_poll (s : State) (bound : Nat) (h : s.par.writeBusyBound = some bound) : s.enterBusy.poll = 0 := by
  simp only [State.enterBusy, h]

/-- The byte of a busy-wait without a bound. -/
theorem State.busyWait_unbounded (rx : Byte) (s : State) (h : s.par.writeBusyBound = none) :
    s.busyWait rx = if rx = 0x00 then s else { s with phase := .wEndDeselect } := by
  simp only [State.busyWait, h, reportsBusy, beq_iff_eq]

/-- The byte of a busy-wait with a bound. -/
theorem State.busyWait_bounded (rx : Byte) (s : State) (bound : Nat) (h : s.par.writeBusyBound = some bound) :
    s.busyWait rx = if rx = 0x00 then
        (if s.poll + 1 = bound then ({ s with poll := s.poll + 1 } : State).takeError .write .writeBusyTimeout
          else { s with poll := s.poll + 1 })
      else { s with poll := s.poll + 1, phase := .wEndDeselect } := by
  simp only [State.busyWait, h, reportsBusy, beq_iff_eq]

/-- An exchange of the busy-wait. -/
theorem step_wBusy (s : State) (h : s.IsQuiet) (hp : s.phase = .wBusy) :
    step s = .next ((s.exchange Config.filler).busyWait s.draw) := by
  rw [step_at_wBusy s h.resetIn hp, h.arrive]
  rfl

/-- An exchange of the busy-wait without a bound. -/
theorem step_wBusy_unbounded (s : State) (h : s.IsQuiet) (hp : s.phase = .wBusy) (hbound : s.par.writeBusyBound = none) :
    step s = .next (if s.draw = 0x00 then s.exchange Config.filler
      else { s.exchange Config.filler with phase := .wEndDeselect }) := by
  rw [step_wBusy s h hp, State.busyWait_unbounded _ _ (by exact hbound)]

theorem State.exchangeAll_phase (txs : List Byte) (s : State) : (s.exchangeAll txs).phase = s.phase := by
  rw [State.exchangeAll_frame]

theorem State.exchangeAll_par (txs : List Byte) (s : State) : (s.exchangeAll txs).par = s.par := by
  rw [State.exchangeAll_frame]

/-- Without a bound the wait goes on while the card is busy. -/
theorem run_wBusy_unbounded (n : Nat) (s : State) (h : s.IsQuiet) (hp : s.phase = .wBusy)
    (hbound : s.par.writeBusyBound = none) (hdraws : s.card.draws n = List.replicate n 0x00) :
    run n s = .next (s.exchangeAll (List.replicate n Config.filler)) := by
  induction n generalizing s with
  | zero => rfl
  | succ n ih =>
    obtain ⟨hdraw, hrest⟩ := List.cons.inj hdraws
    have hstep := step_wBusy_unbounded s h hp hbound
    rw [if_pos (by exact hdraw)] at hstep
    rw [run_succ _ hstep, ih (s.exchange Config.filler) (h.exchange _) hp hbound hrest, List.replicate_succ,
      State.exchangeAll_cons]

/-- The busy-wait after a number of exchanges under a bound: W_BUSY and POLL. -/
def State.atBusy (n : Nat) (s : State) : State := { s with phase := .wBusy, poll := n }

theorem State.atBusy_self (s : State) (n : Nat) (hp : s.phase = .wBusy) (hn : s.poll = n) : s.atBusy n = s := by
  rw [State.atBusy, ← hp, ← hn]

theorem State.IsQuiet.atBusy {s : State} (h : s.IsQuiet) (n : Nat) : (s.atBusy n).IsQuiet := ⟨h.resetIn, h.hostQueue⟩

/-- An exchange of the busy-wait under a bound. -/
theorem step_atBusy (s : State) (n bound : Nat) (h : s.IsQuiet) (hbound : s.par.writeBusyBound = some bound) :
    step (s.atBusy n) = .next (if s.draw = 0x00 then
        (if n + 1 = bound then ((s.exchange Config.filler).atBusy (n + 1)).takeError .write .writeBusyTimeout
          else (s.exchange Config.filler).atBusy (n + 1))
      else ((s.exchange Config.filler).atBusy (n + 1)).atPoint .wEndDeselect s.idx) := by
  rw [step_wBusy (s.atBusy n) (h.atBusy n) rfl, State.busyWait_bounded _ _ bound (by exact hbound)]
  rfl

/-- Under a bound the wait goes on and counts while the card is busy. -/
theorem run_wBusy_bounded (k bound : Nat) (s : State) (n : Nat) (h : s.IsQuiet)
    (hbound : s.par.writeBusyBound = some bound) (hdraws : s.card.draws k = List.replicate k 0x00) (hk : n + k < bound) :
    run k (s.atBusy n) = .next ((s.exchangeAll (List.replicate k Config.filler)).atBusy (n + k)) := by
  induction k generalizing s n with
  | zero => rfl
  | succ k ih =>
    obtain ⟨hdraw, hrest⟩ := List.cons.inj hdraws
    have hstep := step_atBusy s n bound h hbound
    rw [if_pos (by exact hdraw), if_neg (by omega)] at hstep
    rw [run_succ _ hstep, ih (s.exchange Config.filler) (n + 1) (h.exchange _) hbound hrest (by omega),
      List.replicate_succ, State.exchangeAll_cons, Nat.add_right_comm, Nat.add_assoc]

/-- Settles O51: the wait goes on, beside the host's accesses. -/
theorem aBusyCardHangsTheWrite : Obligations.ABusyCardHangsTheWrite := by
  intro s hr hp hbound hscript hforever n
  have hdraws := CardSource.draws_forever n 0x00 s.quiet.card hscript hforever
  have hquiet := run_wBusy_unbounded n s.quiet (s.isQuiet_quiet hr) hp hbound hdraws
  have hphase : (s.quiet.exchangeAll (List.replicate n Config.filler)).phase = .wBusy :=
    (State.exchangeAll_phase ..).trans hp
  have hrun := run_hostOf_busy n s s.quiet _ s.hostOf_quiet rfl hr hquiet (hphase.trans_ne nofun)
  have htrace := s.quiet.exchangeAll_replicate_trace Config.filler n
  rw [hdraws] at htrace
  rw [State.exchangeAll_frame] at hrun
  exact ⟨_, hrun, hp, State.busy_eq_true _ (hp.trans_ne nofun), rfl, rfl, htrace⟩

/-- The answers of a card busy for some exchanges, by its script. -/
theorem draws_replicate (n : Nat) (b : Byte) (rest : List Byte) (c : CardSource)
    (hscript : c.script = List.replicate n b ++ rest) : c.draws n = List.replicate n b := by
  have hdraws := c.draws_of_script (List.replicate n b) rest hscript
  rwa [List.length_replicate] at hdraws

/-- Settles O52: the wait without a bound, and the byte that ends it. -/
theorem busyWaitEndsAtTheFirstOtherByte : Obligations.BusyWaitEndsAtTheFirstOtherByte := by
  refine ⟨fun s hr hp hacc => ⟨_, step_wResp_accepted s hr hp hacc, State.enterBusy_phase _⟩,
    fun s n b rest hr hp hbound hb hscript => ?_⟩
  have hquiet := s.isQuiet_quiet hr
  have hwaits := run_wBusy_unbounded n s.quiet hquiet hp hbound (draws_replicate n 0x00 _ s.quiet.card hscript)
  have hdraw := s.quiet.exchangeAll_draw (List.replicate n Config.filler) (List.replicate n 0x00) rest b hscript (by simp)
  have hends := step_wBusy_unbounded _ (hquiet.exchangeAll (List.replicate n Config.filler))
    ((State.exchangeAll_phase ..).trans hp) ((congrArg _ (State.exchangeAll_par ..)).trans hbound)
  rw [hdraw, if_neg hb] at hends
  have hrun := run_hostOf_busy _ s s.quiet _ s.hostOf_quiet rfl hr ((run_snoc n hwaits).trans hends) nofun
  have hpoll : (s.quiet.exchangeAll (List.replicate n Config.filler)).poll = s.poll := by
    rw [State.exchangeAll_frame]
    rfl
  have htrace := s.quiet.exchangeAll_received Config.filler (List.replicate n 0x00 ++ [b]) rest
    (hscript.trans (List.append_cons ..))
  rw [List.length_append, List.length_singleton, List.length_replicate, List.replicate_succ',
    State.exchangeAll_append] at htrace
  exact ⟨_, hrun, rfl, hpoll, htrace⟩

/-- Under a bound, the byte that comes after some answers of a busy card. -/
theorem run_wBusy_answer (n bound : Nat) (b : Byte) (rest : List Byte) (s : State) (h : s.IsQuiet) (hp : s.phase = .wBusy)
    (hpoll : s.poll = 0) (hbound : s.par.writeBusyBound = some bound) (hn : n < bound)
    (hscript : s.card.script = List.replicate n 0x00 ++ b :: rest) :
    run (n + 1) s = .next (
      let after := ((s.exchangeAll (List.replicate n Config.filler)).exchange Config.filler).atBusy (n + 1)
      if b = 0x00 then (if n + 1 = bound then after.takeError .write .writeBusyTimeout else after)
      else after.atPoint .wEndDeselect s.idx) := by
  have hwaits := run_wBusy_bounded n bound s 0 h hbound (draws_replicate n 0x00 _ s.card hscript)
    ((Nat.zero_add n).trans_lt hn)
  rw [State.atBusy_self s 0 hp hpoll, Nat.zero_add] at hwaits
  have hanswer := step_atBusy _ n bound (h.exchangeAll (List.replicate n Config.filler))
    ((congrArg _ (State.exchangeAll_par ..)).trans hbound)
  have hidx : (s.exchangeAll (List.replicate n Config.filler)).idx = s.idx := by rw [State.exchangeAll_frame]
  rw [s.exchangeAll_draw (List.replicate n Config.filler) (List.replicate n 0x00) rest b hscript (by simp),
    hidx] at hanswer
  exact (run_snoc n hwaits).trans hanswer

/-- Settles O53: the wait under a bound, the byte that ends it, and the exit when the bound is reached. -/
theorem boundedBusyWaitTimesOut : Obligations.BoundedBusyWaitTimesOut := by
  intro s bound hr hbound hpos
  refine ⟨fun hp hacc => ⟨_, step_wResp_accepted s hr hp hacc, State.enterBusy_phase _,
    State.enterBusy_poll _ bound (by simpa using hbound)⟩, fun n b rest hp hpoll hn hb hscript => ?_,
    fun rest hp hpoll hscript => ?_⟩
  · have hquiet := run_wBusy_answer n bound b rest s.quiet (s.isQuiet_quiet hr) hp hpoll hbound hn hscript
    rw [if_neg hb] at hquiet
    have hrun := run_hostOf_busy _ s s.quiet _ s.hostOf_quiet rfl hr hquiet nofun
    have hresults : (s.quiet.exchangeAll (List.replicate n Config.filler)).results = s.results := by
      rw [State.exchangeAll_frame]
      rfl
    exact ⟨_, hrun, rfl, hresults⟩
  · obtain ⟨n, rfl⟩ := Nat.exists_eq_add_of_lt hpos
    rw [Nat.zero_add] at *
    rw [List.replicate_succ', List.append_assoc] at hscript
    have hquiet := run_wBusy_answer n (n + 1) 0x00 rest s.quiet (s.isQuiet_quiet hr) hp hpoll hbound n.lt_succ_self
      hscript
    rw [if_pos rfl, if_pos rfl] at hquiet
    exact ⟨_, run_errorExit_after .write (n + 1) s _ hr (hp.trans_ne nofun) hquiet rfl, rfl, rfl, rfl⟩

end Sys2Proof.Machine
end
